-- ==== Sys2Proof/Word.lean ====
section
/-! DEFINITION. The word and byte types of the link port and the buffer, and counting that stops at a maximum. -/

namespace Sys2Proof

/-- A word of the link port is 32 bits (R186). -/
abbrev Word := BitVec 32

/-- A byte of sector data. -/
abbrev Byte := BitVec 8

/-- The number `x` in a field of `w` bits. -/
abbrev bits (w x : Nat) : BitVec w := BitVec.ofNat w x

/-- One more, for a count said to saturate at `max` (00, Conventions). -/
def satSucc (max x : Nat) : Nat := if x < max then x + 1 else x

end Sys2Proof
end

