-- ==== Sys2Proof/Config.lean ====
section
/-! DEFINITION. The figures the manual fixes for the part, and the numbers it leaves open (constants with no body). -/

namespace Sys2Proof

/-- The three kinds of volume table entry (R28). -/
inductive EntryKind where
  | unused | medium | view
  deriving DecidableEq, Repr

/-- The geometry fields in the order R36 tests them. -/
inductive GeometryField where
  | cylinders | heads | sectorsPerBand | firstSectorId | sizeCode | encoding | dataRate
  deriving DecidableEq, Repr

/-- The fields a profile command is tested on, in the order of R47 and R46. -/
inductive ProfileField where
  | matchClass | classMask | cylinder | cylinderMask | head | headMatch
  | passLimit | quorum | tolerance | escalate | startRule | reseat | park | autoSynthesize
  deriving DecidableEq, Repr

namespace Config

/-- Records in one command queue's list (R187). -/
def queueRecords : Nat := 8
/-- Places of the response queue (R191). -/
def responsePlaces : Nat := 32
/-- Places the intake needs before it takes a command (R189). -/
def intakePlaces : Nat := 2
/-- Jobs in the job table (R58). -/
def jobSlots : Nat := 8
/-- Entries in the sector reconciliation table (R113). -/
def tableEntries : Nat := 1024
/-- Candidates in one entry (R115). -/
def candidateSlots : Nat := 4
/-- Uncertain positions one reading or candidate lists (R109, R115). -/
def uncertainSlots : Nat := 8
/-- Candidates a synthesis needs (R144). -/
def synthesisInputs : Nat := 3
/-- SYNTHESIZE requests in hand or waiting at the unit (R153). -/
def synthesizeRequests : Nat := 4
/-- Header-only readings that may stand in the input queue (R122). -/
def headerOnlyReadings : Nat := 60
/-- Headers taken in one pass (R103). -/
def headersPerPass : Nat := 40
/-- Frames of buffer memory (R155). -/
def frames : Nat := 2048
/-- Bytes in one frame (R155). -/
def frameBytes : Nat := 1024
/-- The pool is low below this many frames (R157). -/
def poolLow : Nat := 8
/-- The step interval in ms (R8). -/
def stepInterval : Nat := 3
/-- The overtime of positioning and of parking in ms (R11, R19). -/
def overtime : Nat := 10000
/-- The retension watchdog in ms (R22). -/
def retensionTime : Nat := 240000

/-- What a byte of buffer memory that nothing has written reads as.
DESIGN CHOICE (log 8, unsafe): the manual gives no contents after power-on. -/
def unwrittenByte : Byte := 0

/-- The revision number in the identification word (R207): not given by the manual (log 10, safe). -/
opaque revision : BitVec 8

/-- The word that names the kind of an entry in a HANDLE_IN_USE refusal (R37): the value lists give no number (log 11, safe). -/
opaque entryKindWord : EntryKind → Word

/-- The word that names a field in a BAD_GEOMETRY refusal (R36): the value lists give no number (log 11, safe). -/
opaque geometryFieldWord : GeometryField → Word

/-- The word that names a field in a BAD_PROFILE refusal (R52): the value lists give no number (log 11, safe). -/
opaque profileFieldWord : ProfileField → Word

end Config
end Sys2Proof
end

