-- ==== Sys2Proof/Syntax.lean ====
section
/-! DEFINITION. The commands and events the part takes: one constructor of `Instr` for each row of spec/opcode_table.json. -/

namespace Sys2Proof

/-- The two command queues (R187). -/
inductive Queue where
  | console | transfer
  deriving DecidableEq, Repr

/-- The link port locations whose writes are discarded (R186). -/
inductive ReadOnlyLocation where
  | responseOutput | statusWord | identification | fillLevels
  deriving DecidableEq, Repr

/-- The eight locations of the link port (R186). -/
inductive Location where
  | consoleInput | transferInput | responseOutput | dataPort | statusWord | notifyEnable | identification | fillLevels
  deriving DecidableEq, Repr

/-- The band a record names (R202): handle, cylinder and head. -/
structure BandField where
  handle : BitVec 6
  cylinder : BitVec 10
  head : BitVec 6
  deriving DecidableEq, Repr

/-- The key a record names (R202). -/
structure KeyField where
  handle : BitVec 6
  cylinder : BitVec 10
  head : BitVec 6
  sector : BitVec 8
  deriving DecidableEq, Repr

/-- Parameters A and B of DRIVE CONFIG (R203). -/
structure ConfigField where
  kind : BitVec 2
  settle : BitVec 6
  index : BitVec 11
  mark : BitVec 13
  interval : BitVec 7
  auto : Bool
  deriving DecidableEq, Repr

/-- The geometry word of MOUNT (R203). -/
structure GeometryWord where
  cylinders : BitVec 11
  heads : BitVec 6
  sectors : BitVec 6
  firstId : BitVec 8
  deriving DecidableEq, Repr

/-- The medium word of MOUNT (R203). -/
structure MediumField where
  size : BitVec 2
  encoding : BitVec 2
  rate : BitVec 2
  cls : BitVec 3
  level : BitVec 3
  drive : BitVec 3
  kind : BitVec 2
  deriving DecidableEq, Repr

/-- Parameter A of ALIAS (R203). -/
structure ViewField where
  target : BitVec 6
  offset : BitVec 10
  limit : BitVec 11
  level : BitVec 3
  deriving DecidableEq, Repr

/-- The match cylinder and head of SET PROFILE with its match word (R201, R203). -/
structure MatchField where
  cls : BitVec 3
  classMask : BitVec 3
  cylinder : BitVec 10
  cylinderMask : BitVec 10
  head : BitVec 6
  anyHead : Bool
  deriving DecidableEq, Repr

/-- The attribute word (R201). -/
structure AttributeField where
  passLimit : BitVec 4
  quorum : BitVec 3
  tolerance : BitVec 3
  escalate : Bool
  startFirst : Bool
  reseat : Bool
  park : Bool
  autoSynthesize : Bool
  deriving DecidableEq, Repr

/-- What a command record says to the intake: its command and the fields R203 has it read.
`unknown` is a record whose code names no command. -/
inductive HostCommand where
  | unknown (code : BitVec 8)
  | driveConfig (port : BitVec 8) (f : ConfigField)
  | park (port : BitVec 8)
  | retension (port : BitVec 8)
  | driveReset (port : BitVec 8)
  | mount (handle : BitVec 6) (g : GeometryWord) (m : MediumField)
  | defineView (handle : BitVec 6) (f : ViewField)
  | confirm (handle : BitVec 6)
  | unmount (handle : BitVec 6)
  | describe (handle : BitVec 6)
  | setProfile (slot : BitVec 8) (m : MatchField) (a : AttributeField)
  | clearProfile (slot : BitVec 8)
  | setDefaults (a : AttributeField)
  | readProfile (slot : BitVec 8)
  | probeProfile (band : BandField)
  | readBand (band : BandField)
  | cancel (job : BitVec 8)
  | hold (job : BitVec 8) (passes : BitVec 5)
  | lookup (key : KeyField) (window : BitVec 8)
  | find (key : KeyField) (window : BitVec 8) (states : Word)
  | fetch (key : KeyField) (candidate : BitVec 8)
  | choose (key : KeyField) (candidate : BitVec 8)
  | amend (key : KeyField) (check : Word)
  | retire (key : KeyField)
  | retireBand (band : BandField) (scope : BitVec 8)
  | retireVolume (handle : BitVec 6) (scope : BitVec 8)
  | synthesize (key : KeyField)
  | abortTransfer
  | setTransferLevel (level : BitVec 3)
  | status (part : BitVec 8) (number : BitVec 8)
  | clearFlags (flags : BitVec 6)
  | restart
  deriving DecidableEq, Repr

/-- One row of spec/opcode_table.json each. A host command carries its queue, its tag and the fields
of R203; a drive report, a timer expiry or a stream event carries its port. -/
inductive Instr where
  | powerOn
  | resetLine
  | commandQueueWrite (q : Queue) (w : Word)
  | responseQueueRead
  | dataPortRead
  | dataPortWrite (w : Word)
  | notifyEnableWrite (w : Word)
  | registerWrite (l : ReadOnlyLocation) (w : Word)
  | unknownCommand (q : Queue) (tag code : BitVec 8)
  | driveConfig (q : Queue) (tag port : BitVec 8) (f : ConfigField)
  | park (q : Queue) (tag port : BitVec 8)
  | retension (q : Queue) (tag port : BitVec 8)
  | driveReset (q : Queue) (tag port : BitVec 8)
  | mount (q : Queue) (tag : BitVec 8) (handle : BitVec 6) (g : GeometryWord) (m : MediumField)
  | defineView (q : Queue) (tag : BitVec 8) (handle : BitVec 6) (f : ViewField)
  | confirm (q : Queue) (tag : BitVec 8) (handle : BitVec 6)
  | unmount (q : Queue) (tag : BitVec 8) (handle : BitVec 6)
  | describe (q : Queue) (tag : BitVec 8) (handle : BitVec 6)
  | setProfile (q : Queue) (tag slot : BitVec 8) (m : MatchField) (a : AttributeField)
  | clearProfile (q : Queue) (tag slot : BitVec 8)
  | setDefaults (q : Queue) (tag : BitVec 8) (a : AttributeField)
  | readProfile (q : Queue) (tag slot : BitVec 8)
  | probeProfile (q : Queue) (tag : BitVec 8) (band : BandField)
  | readBand (q : Queue) (tag : BitVec 8) (band : BandField)
  | cancel (q : Queue) (tag job : BitVec 8)
  | hold (q : Queue) (tag job : BitVec 8) (passes : BitVec 5)
  | lookup (q : Queue) (tag : BitVec 8) (key : KeyField) (window : BitVec 8)
  | find (q : Queue) (tag : BitVec 8) (key : KeyField) (window : BitVec 8) (states : Word)
  | fetch (q : Queue) (tag : BitVec 8) (key : KeyField) (candidate : BitVec 8)
  | choose (q : Queue) (tag : BitVec 8) (key : KeyField) (candidate : BitVec 8)
  | amend (q : Queue) (tag : BitVec 8) (key : KeyField) (check : Word)
  | retire (q : Queue) (tag : BitVec 8) (key : KeyField)
  | retireBand (q : Queue) (tag : BitVec 8) (band : BandField) (scope : BitVec 8)
  | retireVolume (q : Queue) (tag : BitVec 8) (handle : BitVec 6) (scope : BitVec 8)
  | synthesize (q : Queue) (tag : BitVec 8) (key : KeyField)
  | abortTransfer (q : Queue) (tag : BitVec 8)
  | setTransferLevel (q : Queue) (tag : BitVec 8) (level : BitVec 3)
  | status (q : Queue) (tag part number : BitVec 8)
  | clearFlags (q : Queue) (tag : BitVec 8) (flags : BitVec 6)
  | restart (q : Queue) (tag : BitVec 8)
  | readyReport (p : Fin 4)
  | notReadyReport (p : Fin 4)
  | mediaChangeReport (p : Fin 4)
  | indexReport (p : Fin 4)
  | blockMarkReport (p : Fin 4)
  | bandStartMark (p : Fin 4)
  | bandEndMark (p : Fin 4)
  | track0Report (p : Fin 4)
  | positionedReport (p : Fin 4)
  | startReport (p : Fin 4)
  | retensionCompleteReport (p : Fin 4)
  | stepIntervalExpiry (p : Fin 4)
  | settleExpiry (p : Fin 4)
  | positionOvertime (p : Fin 4)
  | streamWatchdogExpiry (p : Fin 4)
  | parkOvertime (p : Fin 4)
  | retensionWatchdogExpiry (p : Fin 4)
  | goodHeader (p : Fin 4) (cylinder head sector size : Nat)
  | badHeader (p : Fin 4)
  | dataFieldEnd (p : Fin 4) (data : List Byte) (check : Word) (doubtful : List Nat)
  | takeReading
  | voteEnd
  | dataMark (p : Fin 4)
  deriving DecidableEq, Repr

end Sys2Proof
end

