-- ==== Sys2Proof/WellFormed.lean ====
section
/-! DEFINITION. Which terms of `Instr` the host or a drive can produce. -/

namespace Sys2Proof

/-- The command codes of R203. -/
def commandCodes : List (BitVec 8) :=
  [1, 2, 3, 4, 8, 9, 10, 11, 12, 16, 17, 18, 19, 20, 24, 25, 26, 32, 33, 34, 35, 36, 37, 38, 39, 40, 44, 48, 49, 50, 51]

/-- A code names a command exactly when R203 lists it. -/
def namesCommand (code : BitVec 8) : Bool := commandCodes.contains code

/-- The sector lengths (R36). -/
def sectorLengths : List Nat := [128, 256, 512, 1024]

/-- A command or event that can reach the part: an unknown command's code names no command, a header's fields lie in
the ranges of the key and of the size code, and a data field holds a whole sector with offsets of at most its own
length and 4 check bytes (R109). Every other operand is of its field's exact width. -/
def Instr.wellFormed : Instr → Bool
  | .unknownCommand _ _ code => !namesCommand code
  | .goodHeader _ cylinder head sector size => decide (cylinder < 1024) && decide (head < 64) && decide (sector < 256) && decide (size < 4)
  | .dataFieldEnd _ data _ doubtful => sectorLengths.contains data.length && doubtful.all (fun o => decide (o < data.length + 4))
  | .powerOn | .resetLine | .commandQueueWrite _ _ | .responseQueueRead | .dataPortRead | .dataPortWrite _
  | .notifyEnableWrite _ | .registerWrite _ _ | .driveConfig _ _ _ _ | .park _ _ _ | .retension _ _ _ | .driveReset _ _ _
  | .mount _ _ _ _ _ | .defineView _ _ _ _ | .confirm _ _ _ | .unmount _ _ _ | .describe _ _ _ | .setProfile _ _ _ _ _
  | .clearProfile _ _ _ | .setDefaults _ _ _ | .readProfile _ _ _ | .probeProfile _ _ _ | .readBand _ _ _ | .cancel _ _ _
  | .hold _ _ _ _ | .lookup _ _ _ _ | .find _ _ _ _ _ | .fetch _ _ _ _ | .choose _ _ _ _ | .amend _ _ _ _ | .retire _ _ _
  | .retireBand _ _ _ _ | .retireVolume _ _ _ _ | .synthesize _ _ _ | .abortTransfer _ _ | .setTransferLevel _ _ _
  | .status _ _ _ _ | .clearFlags _ _ _ | .restart _ _ | .readyReport _ | .notReadyReport _ | .mediaChangeReport _
  | .indexReport _ | .blockMarkReport _ | .bandStartMark _ | .bandEndMark _ | .track0Report _ | .positionedReport _
  | .startReport _ | .retensionCompleteReport _ | .stepIntervalExpiry _ | .settleExpiry _ | .positionOvertime _
  | .streamWatchdogExpiry _ | .parkOvertime _ | .retensionWatchdogExpiry _ | .badHeader _ | .takeReading | .voteEnd
  | .dataMark _ => true

/-- A host command as a record can carry it: an unknown command's code names no command, and a state set, a selector
or a parameter is of its field's width by its type. -/
def HostCommand.wellFormed : HostCommand → Bool
  | .unknown code => !namesCommand code
  | _ => true

end Sys2Proof
end

