-- ==== Sys2Proof/Decode.lean ====
section
/-! DEFINITION. The layout of command records (R201 to R203), read and written. The opcode table gives no row any bits. -/

namespace Sys2Proof

/-- A command record is four words (R202). -/
structure Record where
  w0 : Word
  w1 : Word
  w2 : Word
  w3 : Word
  deriving DecidableEq, Repr

namespace Record

def code (r : Record) : BitVec 8 := r.w0.extractLsb' 24 8
def tag (r : Record) : BitVec 8 := r.w0.extractLsb' 16 8
def handle (r : Record) : BitVec 6 := r.w0.extractLsb' 10 6
def cylinder (r : Record) : BitVec 10 := r.w0.extractLsb' 0 10
def head (r : Record) : BitVec 6 := r.w1.extractLsb' 26 6
def sector (r : Record) : BitVec 8 := r.w1.extractLsb' 18 8
def selector (r : Record) : BitVec 8 := r.w1.extractLsb' 10 8

def band (r : Record) : BandField := ⟨r.handle, r.cylinder, r.head⟩
def key (r : Record) : KeyField := ⟨r.handle, r.cylinder, r.head, r.sector⟩

end Record

/-- Parameters A and B of DRIVE CONFIG (R203). -/
def ConfigField.ofWords (a b : Word) : ConfigField :=
  ⟨a.extractLsb' 30 2, a.extractLsb' 24 6, a.extractLsb' 13 11, a.extractLsb' 0 13, b.extractLsb' 25 7, b.getLsbD 24⟩
def ConfigField.wordA (f : ConfigField) : Word := f.kind ++ f.settle ++ f.index ++ f.mark
def ConfigField.wordB (f : ConfigField) : Word := f.interval ++ BitVec.ofBool f.auto ++ 0#24

/-- The geometry word of MOUNT (R203). -/
def GeometryWord.ofWord (w : Word) : GeometryWord :=
  ⟨w.extractLsb' 21 11, w.extractLsb' 15 6, w.extractLsb' 9 6, w.extractLsb' 1 8⟩
def GeometryWord.word (g : GeometryWord) : Word := g.cylinders ++ g.heads ++ g.sectors ++ g.firstId ++ 0#1

/-- The medium word of MOUNT (R203). -/
def MediumField.ofWord (w : Word) : MediumField :=
  ⟨w.extractLsb' 30 2, w.extractLsb' 28 2, w.extractLsb' 26 2, w.extractLsb' 23 3, w.extractLsb' 20 3, w.extractLsb' 17 3, w.extractLsb' 15 2⟩
def MediumField.word (m : MediumField) : Word :=
  m.size ++ m.encoding ++ m.rate ++ m.cls ++ m.level ++ m.drive ++ m.kind ++ 0#15

/-- Parameter A of ALIAS (R203). -/
def ViewField.ofWord (w : Word) : ViewField := ⟨w.extractLsb' 26 6, w.extractLsb' 16 10, w.extractLsb' 5 11, w.extractLsb' 2 3⟩
def ViewField.word (f : ViewField) : Word := f.target ++ f.offset ++ f.limit ++ f.level ++ 0#2

/-- The match word, with the cylinder and head of words 0 and 1 (R201, R203). -/
def MatchField.ofRecord (r : Record) : MatchField :=
  ⟨r.w2.extractLsb' 29 3, r.w2.extractLsb' 26 3, r.cylinder, r.w2.extractLsb' 16 10, r.head, r.w2.getLsbD 15⟩
def MatchField.word (m : MatchField) : Word := m.cls ++ m.classMask ++ m.cylinderMask ++ BitVec.ofBool m.anyHead ++ 0#15

/-- The attribute word (R201). -/
def AttributeField.ofWord (w : Word) : AttributeField :=
  ⟨w.extractLsb' 28 4, w.extractLsb' 25 3, w.extractLsb' 22 3, w.getLsbD 21, w.getLsbD 20, w.getLsbD 19, w.getLsbD 18, w.getLsbD 17⟩
def AttributeField.word (a : AttributeField) : Word :=
  a.passLimit ++ a.quorum ++ a.tolerance ++ BitVec.ofBool a.escalate ++ BitVec.ofBool a.startFirst ++ BitVec.ofBool a.reseat
    ++ BitVec.ofBool a.park ++ BitVec.ofBool a.autoSynthesize ++ 0#17

/-- What the intake reads in a record: the code first, then the fields R203 gives for it and no others (R202). -/
def Record.command (r : Record) : HostCommand :=
  match r.code.toNat with
  | 1 => .driveConfig r.selector (.ofWords r.w2 r.w3)
  | 2 => .park r.selector
  | 3 => .retension r.selector
  | 4 => .driveReset r.selector
  | 8 => .mount r.handle (.ofWord r.w2) (.ofWord r.w3)
  | 9 => .defineView r.handle (.ofWord r.w2)
  | 10 => .confirm r.handle
  | 11 => .unmount r.handle
  | 12 => .describe r.handle
  | 16 => .setProfile r.selector (.ofRecord r) (.ofWord r.w3)
  | 17 => .clearProfile r.selector
  | 18 => .setDefaults (.ofWord r.w3)
  | 19 => .readProfile r.selector
  | 20 => .probeProfile r.band
  | 24 => .readBand r.band
  | 25 => .cancel (r.w2.extractLsb' 0 8)
  | 26 => .hold (r.w2.extractLsb' 0 8) (r.w3.extractLsb' 0 5)
  | 32 => .lookup r.key r.selector
  | 33 => .find r.key r.selector r.w2
  | 34 => .fetch r.key r.selector
  | 35 => .choose r.key r.selector
  | 36 => .amend r.key r.w2
  | 37 => .retire r.key
  | 38 => .retireBand r.band r.selector
  | 39 => .retireVolume r.handle r.selector
  | 40 => .synthesize r.key
  | 44 => .abortTransfer
  | 48 => .setTransferLevel (r.w2.extractLsb' 0 3)
  | 49 => .status r.selector (r.w2.extractLsb' 0 8)
  | 50 => .clearFlags (r.w2.extractLsb' 0 6)
  | 51 => .restart
  | _ => .unknown r.code

/-- The command code of R203. -/
def HostCommand.code : HostCommand → BitVec 8
  | .unknown c => c
  | .driveConfig .. => 1 | .park .. => 2 | .retension .. => 3 | .driveReset .. => 4
  | .mount .. => 8 | .defineView .. => 9 | .confirm .. => 10 | .unmount .. => 11 | .describe .. => 12
  | .setProfile .. => 16 | .clearProfile .. => 17 | .setDefaults .. => 18 | .readProfile .. => 19 | .probeProfile .. => 20
  | .readBand .. => 24 | .cancel .. => 25 | .hold .. => 26
  | .lookup .. => 32 | .find .. => 33 | .fetch .. => 34 | .choose .. => 35 | .amend .. => 36 | .retire .. => 37
  | .retireBand .. => 38 | .retireVolume .. => 39 | .synthesize .. => 40
  | .abortTransfer => 44 | .setTransferLevel .. => 48 | .status .. => 49 | .clearFlags .. => 50 | .restart => 51

/-- A record from its fields (R202); every bit no field holds is 0. -/
def Record.ofFields (code tag : BitVec 8) (handle : BitVec 6) (cylinder : BitVec 10) (head : BitVec 6) (sector selector : BitVec 8)
    (a b : Word) : Record :=
  ⟨code ++ tag ++ handle ++ cylinder, head ++ sector ++ selector ++ 0#10, a, b⟩

/-- The record the host writes to give a command (R202, R203), every field the command does not use 0. -/
def HostCommand.record (tag : BitVec 8) (c : HostCommand) : Record :=
  match c with
  | .unknown _ | .abortTransfer | .restart => .ofFields c.code tag 0 0 0 0 0 0 0
  | .driveConfig port f => .ofFields c.code tag 0 0 0 0 port f.wordA f.wordB
  | .park port | .retension port | .driveReset port => .ofFields c.code tag 0 0 0 0 port 0 0
  | .mount h g m => .ofFields c.code tag h 0 0 0 0 g.word m.word
  | .defineView h f => .ofFields c.code tag h 0 0 0 0 f.word 0
  | .confirm h | .unmount h | .describe h => .ofFields c.code tag h 0 0 0 0 0 0
  | .setProfile slot m a => .ofFields c.code tag 0 m.cylinder m.head 0 slot m.word a.word
  | .clearProfile slot | .readProfile slot => .ofFields c.code tag 0 0 0 0 slot 0 0
  | .setDefaults a => .ofFields c.code tag 0 0 0 0 0 0 a.word
  | .probeProfile b | .readBand b => .ofFields c.code tag b.handle b.cylinder b.head 0 0 0 0
  | .cancel job => .ofFields c.code tag 0 0 0 0 0 (job.setWidth 32) 0
  | .hold job n => .ofFields c.code tag 0 0 0 0 0 (job.setWidth 32) (n.setWidth 32)
  | .lookup k w => .ofFields c.code tag k.handle k.cylinder k.head k.sector w 0 0
  | .find k w states => .ofFields c.code tag k.handle k.cylinder k.head k.sector w states 0
  | .fetch k n | .choose k n => .ofFields c.code tag k.handle k.cylinder k.head k.sector n 0 0
  | .amend k check => .ofFields c.code tag k.handle k.cylinder k.head k.sector 0 check 0
  | .retire k | .synthesize k => .ofFields c.code tag k.handle k.cylinder k.head k.sector 0 0 0
  | .retireBand b scope => .ofFields c.code tag b.handle b.cylinder b.head 0 scope 0 0
  | .retireVolume h scope => .ofFields c.code tag h 0 0 0 scope 0 0
  | .setTransferLevel level => .ofFields c.code tag 0 0 0 0 0 (level.setWidth 32) 0
  | .status part number => .ofFields c.code tag 0 0 0 0 part (number.setWidth 32) 0
  | .clearFlags flags => .ofFields c.code tag 0 0 0 0 0 (flags.setWidth 32) 0

/-- No row of spec/opcode_table.json gives bits, so no word spells a command. -/
def decodeTableWord (_nbits _w : Nat) : Option Instr := none

end Sys2Proof
end

