-- ==== Sys2Proof/Machine/State.lean ====
section
/-! DEFINITION. The state of the part: every register, queue, table, buffer and timer the manual gives it, as plain data. -/

namespace Sys2Proof.Machine

/-- A drive port's kind (R2). The order is that of the value lists (11.6). -/
inductive PortKind where
  | noDrive | floppy | cartridge
  deriving DecidableEq, Repr

/-- The eight port states (R5, 1.4), in the order of the value lists. -/
inductive PortState where
  | offline | idle | positioning | onBand | streaming | parking | retensioning | faulted
  deriving DecidableEq, Repr

/-- The causes of FAULTED (R25). -/
inductive FaultCause where
  | positionOvertime | parkOvertime | repeatedWatchdog | retensionOvertime | retensionMediaChange
  deriving DecidableEq, Repr

/-- The recording encodings (R36). -/
inductive Encoding where
  | fm | mfm | fixed
  deriving DecidableEq, Repr

/-- The data rates (R36). -/
inductive DataRate where
  | k250 | k300 | k500 | fixed
  deriving DecidableEq, Repr

/-- A band address: cylinder and head, or segment and tape track (1.1). -/
structure BandAddress where
  cylinder : Nat
  head : Nat
  deriving DecidableEq, Repr

/-- What a port asks of its drive (00, "What this manual leaves out"). -/
inductive DriveRequest where
  | motorOn | motorOff
  | selectHead (head : Nat)
  | stepOut | stepIn
  | position (band : BandAddress)
  | moveForward
  | stopTape
  | rewind
  | windEndToEnd
  | statusInquiry
  deriving DecidableEq, Repr

/-- What a floppy port in POSITIONING still has to step (R8, R12). -/
inductive Motion where
  | still | recalibrating | seeking
  deriving DecidableEq, Repr

/-- The port record (R2), with the flags and the motion that its rules imply. A timer is stopped (none) or running
with the time left in ms that it was last started with (log 2). -/
structure Port where
  kind : PortKind
  settleTime : Nat
  indexTimeout : Nat
  markTimeout : Nat
  retensionInterval : Nat
  autoRetension : Bool
  state : PortState
  band : Option BandAddress
  format : Option (Encoding × DataRate)
  headCylinder : Option Nat
  motor : Bool
  spinUp : Bool
  ready : Bool
  atStart : Bool
  passCount : Nat
  fault : Option FaultCause
  settleTimer : Option Nat
  overtimeTimer : Option Nat
  streamWatchdog : Option Nat
  retensionWatchdog : Option Nat
  stepTimer : Option Nat
  motion : Motion
  stepped : Bool
  positioned : Bool
  parkOnArrival : Bool
  requests : List DriveRequest
  deriving DecidableEq, Repr

/-- A geometry (R36). -/
structure Geometry where
  cylinders : Nat
  heads : Nat
  sectors : Nat
  firstId : Nat
  sizeCode : Nat
  encoding : Encoding
  rate : DataRate
  deriving DecidableEq, Repr

/-- The fields of a MEDIUM entry (R28). -/
structure Medium where
  drive : Fin 4
  kind : PortKind
  geometry : Geometry
  cls : Nat
  level : Nat
  present : Bool
  deriving DecidableEq, Repr

/-- The fields of an ALIAS entry (R28). -/
structure View where
  target : Nat
  offset : Nat
  limit : Nat
  level : Nat
  deriving DecidableEq, Repr

/-- A volume table entry (R28). -/
inductive VolumeEntry where
  | unused
  | medium (m : Medium)
  | view (v : View)
  deriving DecidableEq, Repr

/-- The floppy capture rule (R46, R100). -/
inductive StartRule where
  | index | first
  deriving DecidableEq, Repr

/-- The eight attributes of a profile (R46). -/
structure Attributes where
  passLimit : Nat
  quorum : Nat
  tolerance : Nat
  escalate : Bool
  startRule : StartRule
  reseat : Bool
  park : Bool
  autoSynthesize : Bool
  deriving DecidableEq, Repr

/-- A slot's match part (R47). -/
structure MatchPart where
  cls : Nat
  classMask : Nat
  cylinder : Nat
  cylinderMask : Nat
  head : Nat
  anyHead : Bool
  deriving DecidableEq, Repr

/-- A valid slot (R45). -/
structure Profile where
  matching : MatchPart
  attributes : Attributes
  deriving DecidableEq, Repr

/-- The profile table (R45). Slots stand under their slot identity: 0 to 7, X0 as 8, X1 as 9; a slot that is not valid is none. -/
structure ProfileTable where
  slots : Vector (Option Profile) 10
  default : Attributes
  deriving DecidableEq, Repr

/-- The seven job states (R62), in the order of the value lists. -/
inductive JobState where
  | queued | positioning | awaitingChannel | streaming | reseating | retensionWait | closing
  deriving DecidableEq, Repr

/-- The stream phase of a job (R62). -/
inductive StreamPhase where
  | capturing | draining
  deriving DecidableEq, Repr

/-- The reasons of a FAILED ending (R90). -/
inductive FailReason where
  | notPresent | wrongBand | noIndex | noMark | mediaGone | positionFault | retensionFault
  deriving DecidableEq, Repr

/-- The reasons of a CANCELLED ending (R90). -/
inductive CancelReason where
  | host | driveReset | restart
  deriving DecidableEq, Repr

/-- A job's ending: its outcome with its reason (R63, R90). -/
inductive Ending where
  | done
  | failed (r : FailReason)
  | cancelled (r : CancelReason)
  deriving DecidableEq, Repr

/-- Whether a floppy job has seen its band in a header (R67). -/
inductive Verification where
  | unverified | retried | verified
  deriving DecidableEq, Repr

/-- The job record (R62), with the source queue and tag its notice carries (R193) and the progress of its close (R78).
The opening order is the job's place in the job table (R61). -/
structure Job where
  id : Nat
  handle : Nat
  cylinder : Nat
  head : Nat
  viaHandle : Option Nat
  drive : Fin 4
  level : Nat
  slot : Nat
  attributes : Attributes
  state : JobState
  phase : StreamPhase
  ending : Option Ending
  passesRun : Nat
  consecutiveFaults : Nat
  verification : Verification
  progress : Bool
  holdRemaining : Nat
  holdBroken : Bool
  tolerance : Nat
  readingsTaken : Nat
  readingsDropped : Nat
  overrun : Nat
  strayHeaders : Nat
  foreignHeaders : Nat
  headerFailures : Nat
  sizeMismatches : Nat
  faults : Nat
  skipped : Nat
  layout : List Nat
  queue : Queue
  tag : BitVec 8
  closeHand : Option Nat
  closeLeft : List Nat
  deriving DecidableEq, Repr

/-- The two decode channels (R92). -/
inductive ChannelName where
  | a | b
  deriving DecidableEq, Repr

/-- The two landing places of a channel (R93). -/
inductive PlaceName where
  | one | two
  deriving DecidableEq, Repr

/-- The conditions of a landing place (R93). -/
inductive PlaceCondition where
  | free | receiving | queued
  deriving DecidableEq, Repr

/-- A landing place: its frame and its condition (R93). -/
structure Place where
  frame : Nat
  condition : PlaceCondition
  deriving DecidableEq, Repr

/-- The four channel states (R92), in the order of the value lists. -/
inductive ChannelState where
  | free | armed | capturing | held
  deriving DecidableEq, Repr

/-- The pass parameters (R92, R99). -/
structure PassParameters where
  pass : Nat
  tolerance : Nat
  startRule : StartRule
  kind : PortKind
  encoding : Encoding
  rate : DataRate
  deriving DecidableEq, Repr

/-- The sector in receipt (R92): its landing place and its header, with its position in the pass (R103) and whether its
data mark has come (R101). -/
structure Receipt where
  place : PlaceName
  sector : Nat
  size : Nat
  position : Nat
  dataMark : Bool
  deriving DecidableEq, Repr

/-- What a pass waits for at the end of the sector in receipt (R92). -/
inductive EndPending where
  | captureEnd | cancel
  deriving DecidableEq, Repr

/-- The channel record (R92) with its landing places (R93). -/
structure Channel where
  state : ChannelState
  owner : Option Nat
  port : Option (Fin 4)
  parameters : Option PassParameters
  startId : Option Nat
  indexesSeen : Nat
  headersTaken : Nat
  readingsPlaced : Nat
  receipt : Option Receipt
  endPending : Option EndPending
  grants : Nat
  placeOne : Place
  placeTwo : Place
  deriving DecidableEq, Repr

/-- The sector a table entry, a reading or a transfer is about (R113). -/
structure Key where
  handle : Nat
  cylinder : Nat
  head : Nat
  sector : Nat
  deriving DecidableEq, Repr

/-- What a reading with data holds beside its header (R107). -/
structure ReadingData where
  clean : Bool
  check : Word
  channel : ChannelName
  place : PlaceName
  deriving DecidableEq, Repr

/-- A reading in the input queue (R107). The header check result is good in every reading. -/
structure Reading where
  key : Key
  size : Nat
  data : Option ReadingData
  uncertain : List Nat
  moreUncertain : Bool
  pass : Nat
  position : Nat
  deriving DecidableEq, Repr

/-- Where a candidate came from (R115). -/
inductive Origin where
  | read | synth | host
  deriving DecidableEq, Repr

/-- A candidate record (R115). -/
structure Candidate where
  frame : Nat
  check : Word
  clean : Bool
  origin : Origin
  agree : Nat
  firstPass : Nat
  uncertain : List Nat
  moreUncertain : Bool
  deriving DecidableEq, Repr

/-- The ten entry states (R118), in the order of the value lists. -/
inductive EntryState where
  | expected | headerOnly | weak | tentative | settled | disputed | synthesized | amended | missing | exhausted
  deriving DecidableEq, Repr

/-- The amend source of an AMENDED entry (R114). -/
inductive AmendSource where
  | hostData
  | chosen (k : Nat)
  deriving DecidableEq, Repr

/-- An entry of the sector reconciliation table (R114). -/
structure Entry where
  key : Key
  size : Nat
  state : EntryState
  best : Option Nat
  candidates : List Candidate
  readings : Nat
  headerOnly : Nat
  dropped : Nat
  lateVariants : Nat
  quorum : Nat
  settledQuorum : Option Nat
  amendSource : Option AmendSource
  pinned : Bool
  deriving DecidableEq, Repr

/-- The ALIAS a command came through, kept for reporting (R32, R171). -/
structure Via where
  handle : Nat
  offset : Nat
  limit : Nat
  deriving DecidableEq, Repr

/-- Who asked for a synthesis (R142). -/
inductive SynthSource where
  | close (job : Nat)
  | command (q : Queue) (tag : BitVec 8) (via : Option Via)
  deriving DecidableEq, Repr

/-- A request at the synthesis unit (R142). -/
structure SynthRequest where
  key : Key
  source : SynthSource
  deriving DecidableEq, Repr

/-- One input of a vote (R145): the data bytes followed by the check value bytes. -/
structure SynthInput where
  index : Nat
  bytes : List Byte
  weight : Nat
  uncertain : List Nat
  deriving DecidableEq, Repr

/-- The synthesis unit (R142): VOTING while `inputs` is present. `kind` is the volume's kind when the inputs were taken,
which says how many of their bytes are check bytes (R145). -/
structure Synth where
  inHand : Option SynthRequest
  wait : List SynthRequest
  workFrame : Option Nat
  inputs : Option (List SynthInput)
  kind : PortKind
  contested : Nat
  ties : Nat
  deriving DecidableEq, Repr

/-- The direction of an open transfer (R161); no transfer is direction NONE. -/
inductive Direction where
  | outbound | inbound
  deriving DecidableEq, Repr

/-- The transfer record of an open transfer (R161). -/
structure Transfer where
  direction : Direction
  key : Key
  queue : Queue
  tag : BitVec 8
  level : Nat
  frame : Nat
  candidate : Option Nat
  size : Nat
  kind : PortKind
  check : Word
  total : Nat
  moved : Nat
  deriving DecidableEq, Repr

/-- The outcome in a closing record (R166, R169). -/
inductive ClosingOutcome where
  | completed | noEntry | stale
  | identical (k : Nat)
  | joined (k : Nat)
  | replaced (left k : Nat)
  | aborted | restart
  deriving DecidableEq, Repr

/-- The closing record of the latest transfer to end (R169). -/
structure ClosingRecord where
  direction : Direction
  key : Key
  queue : Queue
  tag : BitVec 8
  total : Nat
  moved : Nat
  outcome : ClosingOutcome
  deriving DecidableEq, Repr

/-- One command queue: the words of its assembly and its complete records, oldest first (R187). -/
structure Lane where
  assembly : List Word
  records : List Record
  deriving DecidableEq, Repr

/-- One value for each of the four ports. -/
structure Four (α : Type) where
  p0 : α
  p1 : α
  p2 : α
  p3 : α
  deriving DecidableEq, Repr

/-- The link port and the command intake (R186 to R197). `busOut` is the word the last read returned (log 4). -/
structure Link where
  console : Lane
  transfer : Lane
  responses : List (List Word)
  wordsRead : Nat
  reserved : Nat
  preference : Queue
  transferLevel : Nat
  enables : BitVec 5
  overflow : Bool
  portMisuse : Bool
  mediaChanged : Four Bool
  busOut : Word
  deriving DecidableEq, Repr

/-- The buffer memory's bytes: the cells that differ from `Config.unwrittenByte`, by rising address. -/
abbrev Memory := List Host.Cell

/-- The whole part, with the queue of commands and events that wait to be taken. -/
structure State where
  link : Link
  ports : Four Port
  volumes : Vector VolumeEntry 32
  profiles : ProfileTable
  jobs : List Job
  nextJobId : Nat
  channelA : Channel
  channelB : Channel
  waits : List Nat
  input : List Reading
  entries : List Entry
  synth : Synth
  pool : List Nat
  memory : Memory
  transfer : Option Transfer
  closing : Option ClosingRecord
  pending : List Instr
  deriving DecidableEq, Repr

/-- The model has no fault: the manual gives every row an effect, and the part's own faults are port states (R25). -/
inductive Fault : Type where
  deriving DecidableEq, Repr

/-- What a step may refuse. -/
inductive Refusal where
  /-- Raised by an arm of `exec` whose command has no meaning yet (safe): no arm is left so. -/
  | notModelled (mnemonic : String)
  deriving DecidableEq, Repr

/-- A port after power-on and after the RESET line (R2). -/
def Port.reset : Port where
  kind := .noDrive
  settleTime := 15
  indexTimeout := 600
  markTimeout := 2000
  retensionInterval := 24
  autoRetension := true
  state := .offline
  band := none
  format := none
  headCylinder := none
  motor := false
  spinUp := false
  ready := false
  atStart := false
  passCount := 0
  fault := none
  settleTimer := none
  overtimeTimer := none
  streamWatchdog := none
  retensionWatchdog := none
  stepTimer := none
  motion := .still
  stepped := false
  positioned := false
  parkOnArrival := false
  requests := []

/-- The default profile after power-on (R46). -/
def Attributes.reset : Attributes where
  passLimit := 3
  quorum := 2
  tolerance := 2
  escalate := true
  startRule := .first
  reseat := false
  park := false
  autoSynthesize := true

/-- A channel after power-on (R92) with its two landing frames (R93, R155). -/
def Channel.reset (frameOne frameTwo : Nat) : Channel where
  state := .free
  owner := none
  port := none
  parameters := none
  startId := none
  indexesSeen := 0
  headersTaken := 0
  readingsPlaced := 0
  receipt := none
  endPending := none
  grants := 0
  placeOne := ⟨frameOne, .free⟩
  placeTwo := ⟨frameTwo, .free⟩

/-- The link port after power-on (R200). `busOut` is the model's own (log 4). -/
def Link.reset : Link where
  console := ⟨[], []⟩
  transfer := ⟨[], []⟩
  responses := []
  wordsRead := 0
  reserved := 0
  preference := .console
  transferLevel := 3
  enables := 0
  overflow := false
  portMisuse := false
  mediaChanged := ⟨false, false, false, false⟩
  busOut := 0

/-- The synthesis unit after power-on (R142). -/
def Synth.reset : Synth where
  inHand := none
  wait := []
  workFrame := none
  inputs := none
  kind := .noDrive
  contested := 0
  ties := 0

/-- The part after power-on (R200 and the rules it names). The four landing frames are numbered 0 to 3 and the pool 4 to 2047
(log 9). -/
def State.reset : State where
  link := Link.reset
  ports := ⟨Port.reset, Port.reset, Port.reset, Port.reset⟩
  volumes := Vector.replicate 32 .unused
  profiles := ⟨Vector.replicate 10 none, Attributes.reset⟩
  jobs := []
  nextJobId := 0
  channelA := Channel.reset 0 1
  channelB := Channel.reset 2 3
  waits := []
  input := []
  entries := []
  synth := Synth.reset
  pool := (List.range Config.frames).drop 4
  memory := []
  transfer := none
  closing := none
  pending := []

end Sys2Proof.Machine
end

