-- ==== Sys2Proof/Machine/Ops.lean ====
section
/-! DEFINITION. The named operations over the part's state: ports, volumes, jobs, channels, table entries, buffer memory and
the pool. Every other file reads and writes the state through these. -/

namespace Sys2Proof.Machine

/-! ## Whole fields -/

def State.setLink (s : State) (v : Link) : State := { s with link := v }
def State.setPorts (s : State) (v : Four Port) : State := { s with ports := v }
def State.setVolumes (s : State) (v : Vector VolumeEntry 32) : State := { s with volumes := v }
def State.setProfiles (s : State) (v : ProfileTable) : State := { s with profiles := v }
def State.setJobs (s : State) (v : List Job) : State := { s with jobs := v }
def State.setNextJobId (s : State) (v : Nat) : State := { s with nextJobId := v }
def State.setChannelA (s : State) (v : Channel) : State := { s with channelA := v }
def State.setChannelB (s : State) (v : Channel) : State := { s with channelB := v }
def State.setWaits (s : State) (v : List Nat) : State := { s with waits := v }
def State.setInput (s : State) (v : List Reading) : State := { s with input := v }
def State.setEntries (s : State) (v : List Entry) : State := { s with entries := v }
def State.setSynth (s : State) (v : Synth) : State := { s with synth := v }
def State.setPool (s : State) (v : List Nat) : State := { s with pool := v }
def State.setMemory (s : State) (v : Memory) : State := { s with memory := v }
def State.setTransfer (s : State) (v : Option Transfer) : State := { s with transfer := v }
def State.setClosing (s : State) (v : Option ClosingRecord) : State := { s with closing := v }
def State.setPending (s : State) (v : List Instr) : State := { s with pending := v }

/-! ## One of four -/

def Four.get {α : Type} (f : Four α) (p : Fin 4) : α :=
  match p with
  | 0 => f.p0
  | 1 => f.p1
  | 2 => f.p2
  | 3 => f.p3

def Four.set {α : Type} (f : Four α) (p : Fin 4) (v : α) : Four α :=
  match p with
  | 0 => { f with p0 := v }
  | 1 => { f with p1 := v }
  | 2 => { f with p2 := v }
  | 3 => { f with p3 := v }

/-! ## Ports -/

def State.port (s : State) (p : Fin 4) : Port := s.ports.get p
def State.setPort (s : State) (p : Fin 4) (v : Port) : State := s.setPorts (s.ports.set p v)
def State.updatePort (s : State) (p : Fin 4) (f : Port → Port) : State := s.setPort p (f (s.port p))

/-! ## Volumes -/

/-- The entry of handle `h` (R28); a number beyond the table is no entry. -/
def State.volume (s : State) (h : Nat) : VolumeEntry := if h' : h < 32 then s.volumes[h] else .unused

def State.setVolume (s : State) (h : Nat) (v : VolumeEntry) : State :=
  if h' : h < 32 then s.setVolumes (s.volumes.set h v) else s

/-- The fields of the MEDIUM entry of handle `h`, if it is one. -/
def State.medium (s : State) (h : Nat) : Option Medium :=
  match s.volume h with
  | .medium m => some m
  | .unused | .view _ => none

def VolumeEntry.kind : VolumeEntry → EntryKind
  | .unused => .unused
  | .medium _ => .medium
  | .view _ => .view

/-- The handles that can be defined (R28). -/
def handles : List Nat := (List.range 32).drop 1

/-- Whether handle `h` is the MEDIUM entry of drive `p` with present set. -/
def State.presentOn (s : State) (p : Fin 4) (h : Nat) : Bool :=
  match s.medium h with
  | some m => m.drive == p && m.present
  | none => false

/-- The handle of the present MEDIUM entry of drive `p` (R30). -/
def State.presentHandle (s : State) (p : Fin 4) : Option Nat := handles.find? (s.presentOn p)

/-- Sets the present flag of the MEDIUM entry of handle `h` (R30). -/
def State.setPresent (s : State) (h : Nat) (v : Bool) : State :=
  match s.medium h with
  | some m => s.setVolume h (.medium { m with present := v })
  | none => s

/-- Whether a MEDIUM entry names drive `p` (R3). -/
def State.driveMounted (s : State) (p : Fin 4) : Bool :=
  handles.any fun h => match s.medium h with
    | some m => m.drive == p
    | none => false

/-- The number of ALIAS entries whose target is `h` (R41). -/
def State.viewsOf (s : State) (h : Nat) : Nat :=
  handles.countP fun v => match s.volume v with
    | .view a => a.target == h
    | .unused | .medium _ => false

/-- The sector ids of a band (R58). -/
def Geometry.ids (g : Geometry) : List Nat := (List.range g.sectors).map (· + g.firstId)

/-- Whether a sector id is one of the band's (R33, R104). -/
def Geometry.hasId (g : Geometry) (sector : Nat) : Bool := decide (g.firstId ≤ sector) && decide (sector < g.firstId + g.sectors)

/-! ## Jobs -/

def State.job (s : State) (id : Nat) : Option Job := s.jobs.find? (fun j => j.id == id)

/-- Applies `f` to the job with this id; ids are unique in the table (R61). -/
def State.updateJob (s : State) (id : Nat) (f : Job → Job) : State :=
  s.setJobs (s.jobs.map fun j => if j.id == id then f j else j)

/-- Removes a job; those opened after it move up one place in the opening order (R61). -/
def State.removeJob (s : State) (id : Nat) : State := s.setJobs (s.jobs.filter fun j => j.id != id)

/-- The active job of a port: the one of its jobs that is outside QUEUED (R64). -/
def State.activeJob (s : State) (p : Fin 4) : Option Job :=
  s.jobs.find? fun j => j.drive == p && j.state != .queued

/-- The oldest queued job of a port (R64). -/
def State.queuedJob (s : State) (p : Fin 4) : Option Job :=
  s.jobs.find? fun j => j.drive == p && j.state == .queued

/-- The job whose resolved band is this one; there is at most one (R58). -/
def State.bandJob (s : State) (handle cylinder head : Nat) : Option Job :=
  s.jobs.find? fun j => j.handle == handle && j.cylinder == cylinder && j.head == head

def Job.band (j : Job) : BandAddress := ⟨j.cylinder, j.head⟩

def Job.keyOf (j : Job) (sector : Nat) : Key := ⟨j.handle, j.cylinder, j.head, sector⟩

def Key.inBandOf (k : Key) (j : Job) : Bool := k.handle == j.handle && k.cylinder == j.cylinder && k.head == j.head

/-- The sector ids of a job's band, from its MEDIUM entry, which stands while the job does (R41). -/
def State.idsOf (s : State) (j : Job) : List Nat :=
  match s.medium j.handle with
  | some m => m.geometry.ids
  | none => []

/-- A job whose ending is decided, or in CLOSING, is too late to be named (R63, R82). -/
def Job.tooLate (j : Job) : Bool := j.state == .closing || j.ending.isSome

/-- Breaks a hold: hold remaining above 0 becomes 0 and hold broken yes (R98). -/
def Job.breakHold (j : Job) : Job := if 0 < j.holdRemaining then { j with holdRemaining := 0, holdBroken := true } else j

/-- Decides a job's ending, which breaks its hold; an ending already decided stands (R63, R87, R89). -/
def Job.decide (j : Job) (e : Ending) : Job :=
  match j.ending with
  | none => { j.breakHold with ending := some e }
  | some _ => j.breakHold

/-! ## Channels -/

def State.channel (s : State) (c : ChannelName) : Channel :=
  match c with
  | .a => s.channelA
  | .b => s.channelB

def State.setChannel (s : State) (c : ChannelName) (v : Channel) : State :=
  match c with
  | .a => s.setChannelA v
  | .b => s.setChannelB v

def State.updateChannel (s : State) (c : ChannelName) (f : Channel → Channel) : State := s.setChannel c (f (s.channel c))

/-- The channel a job owns (R92). -/
def State.channelOf (s : State) (id : Nat) : Option ChannelName :=
  if s.channelA.owner == some id then some .a else if s.channelB.owner == some id then some .b else none

/-- Whether a channel sees the stream of port `p` (R112). -/
def Channel.sees (c : Channel) (p : Fin 4) : Bool := c.port == some p && (c.state == .armed || c.state == .capturing)

/-- The channel granted to the stream of port `p` (R112). -/
def State.streamChannel (s : State) (p : Fin 4) : Option ChannelName :=
  if s.channelA.sees p then some .a else if s.channelB.sees p then some .b else none

def Channel.place (c : Channel) (n : PlaceName) : Place :=
  match n with
  | .one => c.placeOne
  | .two => c.placeTwo

def Channel.setPlace (c : Channel) (n : PlaceName) (v : Place) : Channel :=
  match n with
  | .one => { c with placeOne := v }
  | .two => { c with placeTwo := v }

def Channel.setCondition (c : Channel) (n : PlaceName) (v : PlaceCondition) : Channel :=
  c.setPlace n { c.place n with condition := v }

/-- Place 1 if it is FREE, otherwise place 2 if that is FREE (R93). -/
def Channel.freePlace (c : Channel) : Option PlaceName :=
  if c.placeOne.condition == .free then some .one else if c.placeTwo.condition == .free then some .two else none

/-! ## Table entries -/

def Key.before (a b : Key) : Bool :=
  decide (a.handle < b.handle) || (a.handle == b.handle &&
    (decide (a.cylinder < b.cylinder) || (a.cylinder == b.cylinder &&
      (decide (a.head < b.head) || (a.head == b.head && decide (a.sector < b.sector))))))

def State.entry (s : State) (k : Key) : Option Entry := s.entries.find? (fun e => e.key == k)

/-- Applies `f` to the entry with this key; keys are unique in the table (R113). -/
def State.updateEntry (s : State) (k : Key) (f : Entry → Entry) : State :=
  s.setEntries (s.entries.map fun e => if e.key == k then f e else e)

/-- An entry takes its place in key order (R113). -/
def insertEntry (e : Entry) : List Entry → List Entry
  | [] => [e]
  | x :: rest => if e.key.before x.key then e :: x :: rest else x :: insertEntry e rest

/-- The closed states (R118). -/
def EntryState.closed : EntryState → Bool
  | .settled | .synthesized | .amended => true
  | .expected | .headerOnly | .weak | .tentative | .disputed | .missing | .exhausted => false

/-- The entries of a job's band at the sector ids of its geometry (R91). -/
def State.bandEntries (s : State) (j : Job) : List Entry :=
  s.entries.filter fun e => e.key.inBandOf j && (s.idsOf j).contains e.key.sector

/-! ## Buffer memory -/

namespace Memory

/-- The canonical form: addresses strictly rising, and no cell equal to what an unlisted address reads as. -/
def wf : Memory → Bool
  | [] => true
  | [c] => c.2 != Config.unwrittenByte
  | c :: d :: rest => c.2 != Config.unwrittenByte && decide (c.1 < d.1) && wf (d :: rest)

/-- One byte. -/
def read (m : Memory) (a : Nat) : Byte :=
  match m with
  | [] => Config.unwrittenByte
  | c :: rest => if c.1 == a then c.2 else read rest a

/-- The cells that `bytes` from address `a` on need. -/
def cells (a : Nat) : List Byte → Memory
  | [] => []
  | b :: rest => if b == Config.unwrittenByte then cells (a + 1) rest else (a, b) :: cells (a + 1) rest

/-- Stores `bytes` at address `a` and on. -/
def write (m : Memory) (a : Nat) (bytes : List Byte) : Memory :=
  m.filter (fun c => decide (c.1 < a)) ++ cells a bytes ++ m.filter (fun c => decide (a + bytes.length ≤ c.1))

/-- The `n` bytes from address `a` on. -/
def readBlock (m : Memory) (a : Nat) : Nat → List Byte
  | 0 => []
  | n + 1 => m.read a :: readBlock m (a + 1) n

end Memory

/-- Sector lengths are 128, 256, 512 and 1024 bytes for size codes 0 to 3 (00, Terms). -/
def sectorLength (size : Nat) : Nat := 128 * 2 ^ size

/-- The address of byte 0 of a frame. -/
def frameAddress (frame : Nat) : Nat := frame * Config.frameBytes

/-- The sector data in a frame, at its start (R108, R115). -/
def State.frameData (s : State) (frame size : Nat) : List Byte := s.memory.readBlock (frameAddress frame) (sectorLength size)

/-- Stores bytes in a frame from byte `offset` on; no byte beyond the frame is touched. -/
def State.writeFrame (s : State) (frame offset : Nat) (bytes : List Byte) : State :=
  s.setMemory (s.memory.write (frameAddress frame + offset) (bytes.take (Config.frameBytes - offset)))

/-! ## The pool -/

/-- A claim for one frame (R156): none where the pool is empty. -/
def State.claimFrame (s : State) : Option (Nat × State) :=
  match s.pool with
  | [] => none
  | f :: rest => some (f, s.setPool rest)

/-- A frame returned to the pool (R156). -/
def State.returnFrame (s : State) (f : Nat) : State := s.setPool (f :: s.pool)

/-- The frames an open inbound transfer holds (R155). -/
def inboundOf : Option Transfer → List Nat
  | some t => if t.direction = .inbound then [t.frame] else []
  | none => []

/-- The frames that stand in no landing place and not in the pool: those of candidates, of an inbound transfer and of a vote (R155). -/
def State.framesOut (s : State) : List Nat :=
  s.entries.flatMap (fun e => e.candidates.map Candidate.frame) ++ inboundOf s.transfer ++ s.synth.workFrame.toList

/-- Several frames returned to the pool, as at a retirement (R182). -/
def State.returnFrames (s : State) : List Nat → State
  | [] => s
  | f :: rest => (s.returnFrame f).returnFrames rest

end Sys2Proof.Machine
end

