-- ==== Sys2Proof/Machine/Check.lean ====
section
/-! DEFINITION. The 16-bit and 32-bit data checks (R108). -/

namespace Sys2Proof.Machine

/-- One bit of a cyclic remainder of width `w`: shift left, and add the polynomial if a one leaves at the top. -/
def checkBit {w : Nat} (poly : BitVec w) (r : BitVec w) : BitVec w := if r.msb then (r <<< 1) ^^^ poly else r <<< 1

/-- Eight bits, most significant first. -/
def checkBits {w : Nat} (poly : BitVec w) : Nat → BitVec w → BitVec w
  | 0, r => r
  | n + 1, r => checkBits poly n (checkBit poly r)

/-- One byte enters at the top of the remainder. -/
def checkByte {w : Nat} (poly : BitVec w) (r : BitVec w) (b : Byte) : BitVec w :=
  checkBits poly 8 (r ^^^ (b.setWidth w <<< (w - 8)))

/-- The remainder of the bytes, the register all ones before the first byte, the result not inverted (R108). -/
def remainder {w : Nat} (poly : BitVec w) (bytes : List Byte) : BitVec w := bytes.foldl (checkByte poly) (BitVec.allOnes w)

/-- x^16 + x^12 + x^5 + 1 (R108). -/
def check16 (bytes : List Byte) : BitVec 16 := remainder 0x1021#16 bytes

/-- x^32 + x^26 + x^23 + x^22 + x^16 + x^12 + x^11 + x^10 + x^8 + x^7 + x^5 + x^4 + x^2 + x + 1 (R108). -/
def check32 (bytes : List Byte) : BitVec 32 := remainder 0x04C11DB7#32 bytes

/-- The check of a volume's kind as a number: 32 bits on a cartridge, 16 on a floppy (R108). -/
def dataCheck (kind : PortKind) (bytes : List Byte) : Word :=
  match kind with
  | .cartridge => check32 bytes
  | .floppy | .noDrive => (check16 bytes).setWidth 32

/-- The number of check value bytes: 4 on a cartridge, 2 on a floppy (R106). -/
def checkLength (kind : PortKind) : Nat :=
  match kind with
  | .cartridge => 4
  | .floppy | .noDrive => 2

/-- A recorded check value of the kind's width. -/
def checkOfKind (kind : PortKind) (check : Word) : Word :=
  match kind with
  | .cartridge => check
  | .floppy | .noDrive => (check.setWidth 16).setWidth 32

/-- The bytes of a recorded check value, most significant first (R207). -/
def checkBytes (kind : PortKind) (check : Word) : List Byte :=
  match kind with
  | .cartridge => [check.extractLsb' 24 8, check.extractLsb' 16 8, check.extractLsb' 8 8, check.extractLsb' 0 8]
  | .floppy | .noDrive => [check.extractLsb' 8 8, check.extractLsb' 0 8]

/-- A check value read from its bytes, most significant first (R108, R207). -/
def checkOfBytes (bytes : List Byte) : Word := bytes.foldl (fun w b => (w <<< 8) ||| b.setWidth 32) 0

end Sys2Proof.Machine
end

