-- ==== Sys2Proof/Machine/Formats.lean ====
section
/-! DEFINITION. Every layout the part produces at the link port (11, R201 to R207): numbers of the value lists, key words,
response records, the entry record and the completion notice. -/

namespace Sys2Proof.Machine

/-- The refusal codes (11.6), in the order of their numbers 1 to 38. -/
inductive RefusalCode where
  | nullHandle | handleRange | notDefined | level | viewChain | bandRange | notPresent
  | handleInUse | badGeometry | kindMismatch | notReady | presentConflict | notMedium | inUse
  | badProfile | badParameter | driveBusy | driveFaulted | driveOffline | notCartridge
  | jobsFull | bandActive | tableFull | noSuchJob | tooLate
  | noEntry | noBest | noCandidate | portBusy | pinned | state | noFrame | tooFew | synthBusy
  | abandoned | noTransfer | malformed | unknownCommand
  deriving DecidableEq, Repr

def RefusalCode.number : RefusalCode → Nat
  | .nullHandle => 1 | .handleRange => 2 | .notDefined => 3 | .level => 4 | .viewChain => 5 | .bandRange => 6 | .notPresent => 7
  | .handleInUse => 8 | .badGeometry => 9 | .kindMismatch => 10 | .notReady => 11 | .presentConflict => 12 | .notMedium => 13
  | .inUse => 14 | .badProfile => 15 | .badParameter => 16 | .driveBusy => 17 | .driveFaulted => 18 | .driveOffline => 19
  | .notCartridge => 20 | .jobsFull => 21 | .bandActive => 22 | .tableFull => 23 | .noSuchJob => 24 | .tooLate => 25
  | .noEntry => 26 | .noBest => 27 | .noCandidate => 28 | .portBusy => 29 | .pinned => 30 | .state => 31 | .noFrame => 32
  | .tooFew => 33 | .synthBusy => 34 | .abandoned => 35 | .noTransfer => 36 | .malformed => 37 | .unknownCommand => 38

/-- The answer codes (11.6). -/
inductive AnswerCode where
  | done | accepted | nothing | holdIgnored | synthFailed
  deriving DecidableEq, Repr

def AnswerCode.number : AnswerCode → Nat
  | .done => 0 | .accepted => 1 | .nothing => 2 | .holdIgnored => 3 | .synthFailed => 4

/-- The three kinds of response record (R193, R204). -/
inductive ResponseKind where
  | answer | refusal | notice
  deriving DecidableEq, Repr

def ResponseKind.number : ResponseKind → Nat
  | .answer => 0 | .refusal => 1 | .notice => 2

/-! ## Numbers of the value lists (11.6) -/

def queueNumber : Queue → Nat
  | .console => 0 | .transfer => 1
def EntryState.number : EntryState → Nat
  | .expected => 0 | .headerOnly => 1 | .weak => 2 | .tentative => 3 | .settled => 4 | .disputed => 5 | .synthesized => 6
  | .amended => 7 | .missing => 8 | .exhausted => 9
def JobState.number : JobState → Nat
  | .queued => 0 | .positioning => 1 | .awaitingChannel => 2 | .streaming => 3 | .reseating => 4 | .retensionWait => 5 | .closing => 6
def StreamPhase.number : StreamPhase → Nat
  | .capturing => 0 | .draining => 1
def PortState.number : PortState → Nat
  | .offline => 0 | .idle => 1 | .positioning => 2 | .onBand => 3 | .streaming => 4 | .parking => 5 | .retensioning => 6 | .faulted => 7
def PortKind.number : PortKind → Nat
  | .noDrive => 0 | .floppy => 1 | .cartridge => 2
def Encoding.number : Encoding → Nat
  | .fm => 0 | .mfm => 1 | .fixed => 2
def DataRate.number : DataRate → Nat
  | .k250 => 0 | .k300 => 1 | .k500 => 2 | .fixed => 3
/-- Fault causes, with none as 0. -/
def faultNumber : Option FaultCause → Nat
  | none => 0 | some .positionOvertime => 1 | some .parkOvertime => 2 | some .repeatedWatchdog => 3
  | some .retensionOvertime => 4 | some .retensionMediaChange => 5
def ChannelState.number : ChannelState → Nat
  | .free => 0 | .armed => 1 | .capturing => 2 | .held => 3
def Origin.number : Origin → Nat
  | .read => 0 | .synth => 1 | .host => 2
/-- Check results: 0 clean, 1 bad (R205). -/
def checkNumber (clean : Bool) : Nat := if clean then 0 else 1
def Direction.number : Direction → Nat
  | .outbound => 1 | .inbound => 2
/-- Outcomes and reasons of a completion notice. -/
def Ending.outcomeNumber : Ending → Nat
  | .done => 0 | .failed _ => 1 | .cancelled _ => 2
def Ending.reasonNumber : Ending → Nat
  | .done => 0
  | .failed .notPresent => 1 | .failed .wrongBand => 2 | .failed .noIndex => 3 | .failed .noMark => 4
  | .failed .mediaGone => 5 | .failed .positionFault => 6 | .failed .retensionFault => 7
  | .cancelled .host => 8 | .cancelled .driveReset => 9 | .cancelled .restart => 10
def ClosingOutcome.number : ClosingOutcome → Nat
  | .completed => 0 | .noEntry => 1 | .stale => 2 | .identical _ => 3 | .joined _ => 4 | .replaced _ _ => 5 | .aborted => 6 | .restart => 7

/-! ## Words -/

/-- A number in a word of its own, in the low-order bits (R204). -/
def numberWord (n : Nat) : Word := bits 32 n
/-- An absent value in a word of its own (R204). -/
def absentWord : Word := BitVec.allOnes 32
def optionWord : Option Nat → Word
  | some n => numberWord n
  | none => absentWord
/-- A yes or no in a word of its own: 1 for yes and 0 for no, numbers chapter 11 does not give there (log 40). -/
def flagWord (b : Bool) : Word := if b then 1 else 0

/-- The key word (R201). -/
def keyWord (handle cylinder head sector : Nat) : Word := bits 6 handle ++ bits 10 cylinder ++ bits 6 head ++ bits 8 sector ++ 0#2

def Key.word (k : Key) : Word := keyWord k.handle k.cylinder k.head k.sector

/-- A key reported through the ALIAS the command named: its handle, and the cylinder less its offset (R171). -/
def Key.wordVia (k : Key) : Option Via → Word
  | none => k.word
  | some v => keyWord v.handle (k.cylinder - v.offset) k.head k.sector

/-- The attribute word (R201). -/
def Attributes.word (a : Attributes) : Word :=
  bits 4 a.passLimit ++ bits 3 a.quorum ++ bits 3 a.tolerance ++ BitVec.ofBool a.escalate ++ BitVec.ofBool (a.startRule == .first)
    ++ BitVec.ofBool a.reseat ++ BitVec.ofBool a.park ++ BitVec.ofBool a.autoSynthesize ++ 0#17

/-- The handle of a packed word that names none: an absent field holds its largest number (R204). -/
def absentHandle : Nat := 63

/-- A match part takes one match word and a key word with the match cylinder and head, and no handle (R204). -/
def MatchPart.words (m : MatchPart) : List Word :=
  [bits 3 m.cls ++ bits 3 m.classMask ++ bits 10 m.cylinderMask ++ BitVec.ofBool m.anyHead ++ 0#15, keyWord absentHandle m.cylinder m.head 0]

/-- Up to four numbers of 8 bits in a word from bit 31, with 255 in the places beyond (R204). -/
def fourToWord : List Nat → Word
  | [] => bits 8 255 ++ bits 8 255 ++ bits 8 255 ++ bits 8 255
  | [a] => bits 8 a ++ bits 8 255 ++ bits 8 255 ++ bits 8 255
  | [a, b] => bits 8 a ++ bits 8 b ++ bits 8 255 ++ bits 8 255
  | [a, b, c] => bits 8 a ++ bits 8 b ++ bits 8 c ++ bits 8 255
  | a :: b :: c :: d :: _ => bits 8 a ++ bits 8 b ++ bits 8 c ++ bits 8 d

/-- A list of ids, four to a word (R204); empty for an empty list. -/
def packFours : List Nat → List Word
  | a :: b :: c :: d :: rest => fourToWord [a, b, c, d] :: packFours rest
  | [] => []
  | short => [fourToWord short]

/-! ## Response records (R204) -/

/-- A response is its header and its body; an empty body is one word of 0. -/
def responseRecord (kind : ResponseKind) (q : Queue) (tag : BitVec 8) (code : Nat) (command : BitVec 8) (body : List Word) : List Word :=
  let body' := if body.isEmpty then [0] else body
  (bits 2 kind.number ++ bits 1 (queueNumber q) ++ bits 5 (body'.length + 1) ++ tag ++ bits 8 code ++ command) :: body'

/-- The first body word of a refusal: whether a handle failed, that handle, absent where none did, and the command code (R204). -/
def refusalWord (failed : Option Nat) (command : BitVec 8) : Word :=
  match failed with
  | some h => 1#1 ++ 0#1 ++ bits 6 h ++ 0#16 ++ command
  | none => 0#1 ++ 0#1 ++ bits 6 absentHandle ++ 0#16 ++ command

/-! ## The entry record (R205) -/

def AmendSource.number : Option AmendSource → Nat
  | some .hostData => 1 | some (.chosen _) => 2 | none => 3
def AmendSource.index : Option AmendSource → Nat
  | some (.chosen k) => k | some .hostData => 3 | none => 3

/-- The positions of the window: places 3 w to 3 w + 2 of the list, 2047 beyond its end (R205). -/
def windowPosition (uncertain : List Nat) (w i : Nat) : Nat := (uncertain[3 * w + i]?).getD 2047

def Candidate.words (c : Candidate) (w : Nat) : List Word :=
  [c.check,
   bits 1 (checkNumber c.clean) ++ bits 2 c.origin.number ++ bits 8 c.agree ++ bits 4 c.firstPass ++ bits 4 c.uncertain.length
     ++ BitVec.ofBool c.moreUncertain ++ 0#1 ++ bits 11 (windowPosition c.uncertain w 0),
   bits 11 (windowPosition c.uncertain w 1) ++ bits 11 (windowPosition c.uncertain w 2) ++ 0#10]

/-- The body of the entry record for window `w`. -/
def Entry.words (e : Entry) (via : Option Via) (w : Nat) : List Word :=
  [e.key.wordVia via,
   bits 2 e.size ++ bits 4 e.state.number ++ bits 3 (e.best.getD 7) ++ bits 3 e.candidates.length ++ bits 3 e.quorum
     ++ bits 3 (e.settledQuorum.getD 7) ++ bits 2 (AmendSource.number e.amendSource) ++ bits 2 (AmendSource.index e.amendSource)
     ++ BitVec.ofBool e.pinned ++ bits 8 e.lateVariants ++ 0#1,
   bits 16 e.readings ++ bits 8 e.headerOnly ++ bits 8 e.dropped]
  ++ e.candidates.flatMap (·.words w)

/-! ## The completion notice (R206) -/

def countState (es : List Entry) (st : EntryState) : Nat := es.countP (fun e => e.state == st)

/-- The body of a job's completion notice over the entries of its band (R90, R91, R206). -/
def Job.noticeBody (j : Job) (e : Ending) (band : List Entry) : List Word :=
  [bits 8 j.id ++ bits 2 e.outcomeNumber ++ bits 4 e.reasonNumber ++ bits 4 j.passesRun ++ BitVec.ofBool j.holdBroken
     ++ bits 3 j.tolerance ++ bits 6 (j.viaHandle.getD 63) ++ 0#4,
   keyWord j.handle j.cylinder j.head 0,
   bits 6 (countState band .settled) ++ bits 6 (countState band .synthesized) ++ bits 6 (countState band .tentative)
     ++ bits 6 (countState band .disputed) ++ bits 6 (countState band .exhausted) ++ 0#2,
   bits 6 (countState band .missing) ++ bits 6 j.skipped ++ bits 8 j.faults ++ 0#12,
   bits 16 j.readingsTaken ++ bits 16 j.readingsDropped,
   bits 16 j.overrun ++ bits 16 j.strayHeaders,
   bits 16 j.foreignHeaders ++ bits 16 j.headerFailures,
   bits 16 j.sizeMismatches ++ 0#16]

/-- A job's completion notice: the outcome in its code field, the source queue and tag of its READ BAND (R206). -/
def Job.notice (j : Job) (e : Ending) (band : List Entry) : List Word :=
  responseRecord .notice j.queue j.tag e.outcomeNumber 24 (j.noticeBody e band)

end Sys2Proof.Machine
end

