-- ==== Sys2Proof/Machine/Responses.lean ====
section
/-! DEFINITION. Reservations, the posting of responses, and the answers and refusals of a command (R190 to R194). -/

namespace Sys2Proof.Machine

/-- The places of the response queue that are neither filled nor reserved (R189, R191). -/
def Link.freePlaces (l : Link) : Nat := Config.responsePlaces - (l.responses.length + l.reserved)

/-- Reserves one place (R191). -/
def State.reserve (s : State) : State := s.setLink { s.link with reserved := s.link.reserved + 1 }

/-- A response posts through its reservation: it joins the end of the response queue, and the reserved place becomes a
filled one (R191). -/
def State.post (s : State) (response : List Word) : State :=
  s.setLink { s.link with responses := s.link.responses ++ [response], reserved := s.link.reserved - 1 }

/-- What a command carries from the intake to the block that owns it: its source queue, its tag, its code as the record
gave it, and its requester level (R188, R190, R193). -/
structure Ctx where
  queue : Queue
  tag : BitVec 8
  code : BitVec 8
  level : Nat
  deriving DecidableEq, Repr

/-- The answer of a command (R193, R204). -/
def State.answer (s : State) (c : Ctx) (code : AnswerCode) (body : List Word) : State :=
  s.post (responseRecord .answer c.queue c.tag code.number c.code body)

/-- A refusal that names no handle, with the words its rule lists (R193, R204). -/
def State.refuse (s : State) (c : Ctx) (code : RefusalCode) (body : List Word) : State :=
  s.post (responseRecord .refusal c.queue c.tag code.number c.code (refusalWord none c.code :: body))

/-- A refusal that names the handle that failed (R31 to R33). -/
def State.refuseHandle (s : State) (c : Ctx) (code : RefusalCode) (handle : Nat) (body : List Word) : State :=
  s.post (responseRecord .refusal c.queue c.tag code.number c.code (refusalWord (some handle) c.code :: body))

/-- The commands that are taken from the console queue alone (R190). -/
def consoleOnly : HostCommand → Bool
  | .driveConfig .. | .driveReset .. | .setProfile .. | .clearProfile .. | .setDefaults .. | .setTransferLevel .. | .restart => true
  | .unknown .. | .park .. | .retension .. | .mount .. | .defineView .. | .confirm .. | .unmount .. | .describe .. | .readProfile ..
  | .probeProfile .. | .readBand .. | .cancel .. | .hold .. | .lookup .. | .find .. | .fetch .. | .choose .. | .amend ..
  | .retire .. | .retireBand .. | .retireVolume .. | .synthesize .. | .abortTransfer | .status .. | .clearFlags .. => false

end Sys2Proof.Machine
end

