-- ==== Sys2Proof/Machine/Flags.lean ====
section
/-! DEFINITION. The status word, its flags, the fill levels, the notify-enable word and the interrupt line (R157, R186,
R195, R196, R207). All of them follow other state and are computed from it. -/

namespace Sys2Proof.Machine

/-- Pool-low: the pool holds fewer than 8 frames (R157). -/
def State.poolLow (s : State) : Bool := decide (s.pool.length < Config.poolLow)

/-- Reconciler busy: the input queue is not empty (R123). -/
def State.reconcilerBusy (s : State) : Bool := !s.input.isEmpty

/-- The transfer direction field: 0 NONE, 1 OUTBOUND, 2 INBOUND (R161, R207). -/
def State.directionNumber (s : State) : Nat :=
  match s.transfer with
  | none => 0
  | some t => t.direction.number

/-- The free places of a command queue: 8 less the records in its list (R187). -/
def Lane.freePlaces (l : Lane) : Nat := Config.queueRecords - l.records.length

/-- A count shown as 0, 1, 2, or 3 for three or more (R207). -/
def shownCount (n : Nat) : Nat := min n 3

/-- The four bits of one port in the port summary (R207). -/
def Port.summary (p : Port) : BitVec 4 := bits 3 p.state.number ++ BitVec.ofBool p.ready

/-- The status word (R195, R207). -/
def State.statusWord (s : State) : Word :=
  bits 2 (shownCount s.link.responses.length) ++ bits 2 (shownCount s.link.console.freePlaces)
    ++ bits 2 (shownCount s.link.transfer.freePlaces)
    ++ BitVec.ofBool s.link.mediaChanged.p3 ++ BitVec.ofBool s.link.mediaChanged.p2
    ++ BitVec.ofBool s.link.mediaChanged.p1 ++ BitVec.ofBool s.link.mediaChanged.p0
    ++ BitVec.ofBool s.link.overflow ++ BitVec.ofBool s.link.portMisuse ++ BitVec.ofBool s.poolLow
    ++ bits 2 s.directionNumber ++ BitVec.ofBool s.reconcilerBusy
    ++ s.ports.p3.summary ++ s.ports.p2.summary ++ s.ports.p1.summary ++ s.ports.p0.summary

/-- The fill-levels word (R186, R207). -/
def State.fillLevels (s : State) : Word :=
  bits 4 s.link.console.records.length ++ bits 4 s.link.transfer.records.length
    ++ bits 2 s.link.console.assembly.length ++ bits 2 s.link.transfer.assembly.length
    ++ bits 6 s.link.responses.length ++ bits 6 s.link.reserved ++ 0#8

/-- The identification word: 240 names the part (R207). -/
def identificationWord : Word := 240#16 ++ Config.revision ++ 0#8

/-- The notify-enable word: the response enable in bit 0, the media-changed enable of port n in bit 1 + n (R207). -/
def State.notifyWord (s : State) : Word := s.link.enables.setWidth 32

/-- The interrupt line (R196). -/
def State.interrupt (s : State) : Bool :=
  (s.link.enables.getLsbD 0 && !s.link.responses.isEmpty)
    || (s.link.enables.getLsbD 1 && s.link.mediaChanged.p0) || (s.link.enables.getLsbD 2 && s.link.mediaChanged.p1)
    || (s.link.enables.getLsbD 3 && s.link.mediaChanged.p2) || (s.link.enables.getLsbD 4 && s.link.mediaChanged.p3)

/-- The reads of the link port that change nothing (R186). A read of the response output or of the data port is a row of
its own and is none here. -/
def State.linkRead (s : State) : Location → Option Word
  | .consoleInput | .transferInput => some 0
  | .statusWord => some s.statusWord
  | .notifyEnable => some s.notifyWord
  | .identification => some identificationWord
  | .fillLevels => some s.fillLevels
  | .responseOutput | .dataPort => none

/-- Sets the port-misuse flag (R162). -/
def State.setMisuse (s : State) : State := s.setLink { s.link with portMisuse := true }

/-- Sets a port's media-changed flag (R7). -/
def State.setMediaChanged (s : State) (p : Fin 4) : State :=
  s.setLink { s.link with mediaChanged := s.link.mediaChanged.set p true }

/-- What the read of a location returns to the host (log 4). -/
def State.putBus (s : State) (w : Word) : State := s.setLink { s.link with busOut := w }

end Sys2Proof.Machine
end

