-- ==== Sys2Proof/Machine/Ports.lean ====
section
/-! DEFINITION. The drive port mechanisms (01): positioning, streaming, parking, retension and faults of one port record. -/

namespace Sys2Proof.Machine

namespace Port

/-- A request issued to the drive. -/
def ask (p : Port) (r : DriveRequest) : Port := { p with requests := p.requests ++ [r] }

/-- Asks a cartridge drive to stop the tape. -/
def stopTape (p : Port) : Port :=
  match p.kind with
  | .cartridge => p.ask .stopTape
  | .floppy | .noDrive => p

/-- Turns a running motor off. -/
def motorStop (p : Port) : Port := if p.motor then { p.ask .motorOff with motor := false } else p

/-- Starts a motor that is off, which sets spin-up pending (R6, R8). -/
def motorStart (p : Port) : Port := if p.motor then p else { p.ask .motorOn with motor := true, spinUp := true }

/-- A status inquiry: the ready flag stays no until the drive's answer arrives (R6, log 5). -/
def inquire (p : Port) : Port := { p.ask .statusInquiry with ready := false }

/-- Every timer stops and no step is due. -/
def stopTimers (p : Port) : Port :=
  { p with settleTimer := none, overtimeTimer := none, streamWatchdog := none, retensionWatchdog := none,
           stepTimer := none, motion := .still }

/-- One step outward, toward cylinder 0; it restarts the settle timer (R8, R9). The count of a known head cylinder
falls by 1, and an outward step at cylinder 0 leaves the head there. -/
def stepOutward (p : Port) : Port :=
  { p.ask .stepOut with headCylinder := p.headCylinder.map (· - 1), settleTimer := some p.settleTime, stepTimer := some Config.stepInterval,
                        stepped := true }

/-- One step inward (R8, R9). -/
def stepInward (p : Port) : Port :=
  { p.ask .stepIn with headCylinder := p.headCylinder.map (· + 1), settleTimer := some p.settleTime, stepTimer := some Config.stepInterval,
                       stepped := true }

/-- The next step of a seek toward the selected cylinder; at the cylinder no further step is due (R8). -/
def seekStep (p : Port) (target : Nat) : Port :=
  match p.headCylinder with
  | none => p
  | some c =>
    if c < target then p.stepInward
    else if target < c then p.stepOutward
    else p

/-- Whether the head is on the selected cylinder. -/
def onTarget (p : Port) : Bool :=
  match p.band, p.headCylinder with
  | some b, some c => c == b.cylinder
  | _, _ => false

/-- A seek ends when the head cylinder equals the requested cylinder (R8). -/
def seekSettled (p : Port) : Port :=
  if p.onTarget then { p with motion := .still, stepTimer := none } else { p with motion := .seeking }

/-- The head movement of a floppy port from where the head is: recalibration if its cylinder is UNKNOWN, otherwise a
seek; the first step is issued at once, and no step where the head is already there (R8). -/
def startMotion (p : Port) : Port :=
  match p.headCylinder, p.band with
  | none, _ => { p.stepOutward with motion := .recalibrating }
  | some _, some b => (p.seekStep b.cylinder).seekSettled
  | some _, none => p

/-- What every entry into POSITIONING does: the selected band, the overtime timer afresh, and no step or positioned
report yet (R8, R10, R12). -/
def enterPositioning (p : Port) (band : BandAddress) : Port :=
  { p with state := .positioning, band := some band, overtimeTimer := some Config.overtime, stepped := false, positioned := false,
           motion := .still, stepTimer := none }

/-- A positioning request, taken in IDLE or ON_BAND (R1, R8, R10). -/
def positionRequest (p : Port) (band : BandAddress) (format : Encoding × DataRate) : Port :=
  match p.kind with
  | .cartridge => ({ p.enterPositioning band with format := some format }).ask (.position band)
  | .floppy | .noDrive =>
    ((({ p.enterPositioning band with format := some format, atStart := true }).motorStart).ask (.selectHead band.head)).startMotion

/-- A reseat request, taken in ON_BAND (R12): on a floppy port one step off the cylinder, outward, or inward at cylinder
0, and the seek then returns one step interval later. -/
def reseatRequest (p : Port) (band : BandAddress) : Port :=
  match p.kind with
  | .cartridge => (p.enterPositioning band).ask (.position band)
  | .floppy | .noDrive =>
    let q := p.enterPositioning band
    if q.headCylinder == some 0 then q.stepInward.seekSettled
    else if q.headCylinder.isSome then q.stepOutward.seekSettled
    else q.startMotion

/-- A recalibrate request, taken in ON_BAND (R12). -/
def recalibrateRequest (p : Port) (band : BandAddress) : Port := ({ p.enterPositioning band with headCylinder := none }).startMotion

/-- Whether the conditions that end POSITIONING hold together (R9, R10). -/
def arrived (p : Port) : Bool :=
  p.state == .positioning && p.ready &&
    match p.kind with
    | .cartridge => p.positioned
    | .floppy | .noDrive => p.motion == .still && p.onTarget && (p.settleTimer.isNone || !p.stepped) && !p.spinUp

/-- The end of POSITIONING: ON_BAND, the overtime timer stopped, at-start yes (R9, R10). -/
def enterOnBand (p : Port) : Port := { p with state := .onBand, overtimeTimer := none, atStart := true }

/-- The full time of the stream watchdog (R15). -/
def watchdogTime (p : Port) : Nat :=
  match p.kind with
  | .cartridge => p.markTimeout
  | .floppy | .noDrive => p.indexTimeout

/-- The stream watchdog restarts at its full time (R15). -/
def restartWatchdog (p : Port) : Port := { p with streamWatchdog := some p.watchdogTime }

/-- Retension is due when the pass count of a cartridge port equals its retension interval (R20). -/
def retensionDue (p : Port) : Bool := p.kind == .cartridge && p.passCount == p.retensionInterval

/-- A stream request is taken in ON_BAND with at-start yes (R14). -/
def canStream (p : Port) : Bool := p.state == .onBand && p.atStart

/-- A stream start (R14, R15): a cartridge port counts the pass, sets at-start to no and moves the tape. -/
def startStream (p : Port) : Port :=
  match p.kind with
  | .cartridge =>
    ({ p with state := .streaming, passCount := p.passCount + 1, atStart := false }.ask .moveForward).restartWatchdog
  | .floppy | .noDrive => ({ p with state := .streaming }).restartWatchdog

/-- A stream ends in ON_BAND, at the channel's request or as a fault (R15, R16). -/
def endStream (p : Port) : Port :=
  if p.state == .streaming then ({ p with state := .onBand, streamWatchdog := none }).stopTape else p

/-- Entry into PARKING (R18): a floppy port issues its first outward step, with its motor on (1.4, log 6); a cartridge
drive is asked to rewind. -/
def startPark (p : Port) : Port :=
  let q := { p with state := .parking, band := none, atStart := false, overtimeTimer := some Config.overtime, motion := .still }
  match p.kind with
  | .cartridge => q.ask .rewind
  | .floppy | .noDrive => q.motorStart.stepOutward

/-- The end of a park in IDLE (R18). -/
def endPark (p : Port) : Port :=
  match p.kind with
  | .cartridge => { p with state := .idle, overtimeTimer := none, parkOnArrival := false }
  | .floppy | .noDrive =>
    { p.motorStop with state := .idle, overtimeTimer := none, stepTimer := none, headCylinder := some 0, spinUp := false, parkOnArrival := false }

/-- The start of a retension (R21). -/
def startRetension (p : Port) : Port :=
  ({ p with state := .retensioning, band := none, atStart := false, retensionWatchdog := some Config.retensionTime }).ask .windEndToEnd

/-- The end of a retension in IDLE (R21). -/
def endRetension (p : Port) : Port :=
  { p with state := .idle, retensionWatchdog := none, passCount := 0, parkOnArrival := false }

/-- Entry into FAULTED (R25, R65). -/
def enterFaulted (p : Port) (cause : FaultCause) : Port :=
  { p.stopTimers.motorStop with state := .faulted, fault := some cause, band := none, atStart := false, spinUp := false, parkOnArrival := false }

/-- A floppy port whose step count is lost holds head cylinder UNKNOWN; a cartridge port has none. -/
def loseHead (p : Port) : Port := { p with headCylinder := none }

/-- Entry into IDLE when work is broken off: timers stop, the motor is turned off, no band (R7, R26, R27, R65). -/
def breakOff (p : Port) : Port :=
  { p.stopTimers.motorStop with state := .idle, band := none, atStart := false, spinUp := false, parkOnArrival := false }

/-- What a media-change report does to the port (R7, R22). -/
def mediaChange (p : Port) : Port :=
  match p.state with
  | .offline | .faulted => p
  | .retensioning => (p.enterFaulted .retensionMediaChange).stopTape
  | .parking =>
    match p.kind with
    | .cartridge => { p.breakOff with passCount := 0 }
    | .floppy | .noDrive => p
  | .idle =>
    match p.kind with
    | .cartridge => { p with passCount := 0 }
    | .floppy | .noDrive => p
  | .positioning | .onBand | .streaming =>
    match p.kind with
    | .cartridge => { p.breakOff with passCount := 0 }
    | .floppy | .noDrive => p.breakOff

/-- What DRIVE RESET does to a port that is neither OFFLINE nor RETENSIONING (R26). -/
def driveReset (p : Port) : Port := ({ p.breakOff.stopTape with headCylinder := none, fault := none }).inquire

/-- What RESTART does to a port (R27): a port cut off while recalibrating or parking loses its head cylinder. -/
def restart (p : Port) : Port :=
  match p.state with
  | .positioning => if p.motion == .recalibrating then p.breakOff.stopTape.loseHead else p.breakOff.stopTape
  | .parking => p.breakOff.stopTape.loseHead
  | .streaming => p.breakOff.stopTape
  | .offline | .idle | .onBand | .retensioning | .faulted => { p with parkOnArrival := false }

/-- A ready report (R6). -/
def readyReport (p : Port) : Port := { p with ready := true, spinUp := false }

/-- The step that is due at the end of a step interval (R8, R12, R18). -/
def stepDue (p : Port) : Port :=
  match p.state, p.motion, p.band with
  | .parking, _, _ => p.stepOutward
  | .positioning, .recalibrating, _ => p.stepOutward
  | .positioning, .seeking, some b => (p.seekStep b.cylinder).seekSettled
  | _, _, _ => { p with stepTimer := none }

/-- A track-0 report while recalibrating: the head is on cylinder 0, and the seek follows (R8). DEDUCED (log 34): the
seek's first step comes at the end of the step interval that is running, not at the report. -/
def endRecalibration (p : Port) : Port := ({ p with headCylinder := some 0 }).seekSettled

end Port
end Sys2Proof.Machine
end

