-- ==== Sys2Proof/Machine/Arbiter.lean ====
section
/-! DEFINITION. Channels and the arbiter (05, R92 to R98): grants, stream requests, holds and releases. -/

namespace Sys2Proof.Machine

/-- Frees the landing place of a sector in receipt, whose reading is discarded (R93, R110). -/
def Channel.dropReceipt (c : Channel) : Channel :=
  match c.receipt with
  | some r => { c.setCondition r.place .free with receipt := none }
  | none => c

/-- A channel enters FREE: the owner, port and pass fields take their power-on values, the grant count and the landing
places stay (R92, R96). A sector still in receipt is discarded. -/
def Channel.toFree (c : Channel) : Channel :=
  { c.dropReceipt with
    state := .free, owner := none, port := none, parameters := none, startId := none, indexesSeen := 0, headersTaken := 0,
    readingsPlaced := 0, endPending := none }

/-- What RESTART makes of a channel: FREE, and each landing place FREE with its frame (R92, R93, R139). -/
def Channel.restart (c : Channel) : Channel :=
  { c.toFree with placeOne := { c.placeOne with condition := .free }, placeTwo := { c.placeTwo with condition := .free } }

/-- A grant: the job becomes the owner, the channel enters ARMED and its grant count rises (R92, R95). -/
def Channel.grant (c : Channel) (id : Nat) (p : Fin 4) : Channel :=
  { c with state := .armed, owner := some id, port := some p, grants := satSucc 65535 c.grants }

/-- The pass parameters handed at a grant, and the pass set up at stream start (R69, R99), with no end pending (log 44). -/
def Channel.setUpPass (c : Channel) (parameters : PassParameters) : Channel :=
  { c.dropReceipt with
    state := .armed, parameters := some parameters, startId := none, indexesSeen := 0, headersTaken := 0, readingsPlaced := 0,
    endPending := none }

/-- The parameters of a job's next pass (R69). DESIGN CHOICE (log 35): the encoding and data rate are those of the volume's
geometry, as R69 has it, not those of the port's latest positioning request (R1). -/
def Job.passParameters (j : Job) (m : Medium) : PassParameters where
  pass := j.passesRun + 1
  tolerance := j.tolerance
  startRule := j.attributes.startRule
  kind := m.kind
  encoding := m.geometry.encoding
  rate := m.geometry.rate

/-- What a grant clears in the job (R69, R103). -/
def Job.beginPass (j : Job) : Job := { j with layout := [], phase := .capturing, progress := false }

/-- A job enters RETENSION_WAIT; with auto-retension on the retension starts at once (R75). -/
def State.enterRetensionWait (s : State) (j : Job) : State :=
  let s := s.updateJob j.id fun j => { j with state := .retensionWait }
  if (s.port j.drive).autoRetension then s.updatePort j.drive Port.startRetension else s

/-- A job goes on as granted through its channel `c` (R69, R14). The second component says that the port refused the
stream request with retension due, and the channel is then still to be released (R75). -/
def State.requestStream (s : State) (c : ChannelName) (j : Job) : State × Bool :=
  match s.medium j.handle with
  | none => (s, false)
  | some m =>
    let s := s.updateJob j.id Job.beginPass
    let p := s.port j.drive
    if !p.canStream then (s, false)
    else if p.retensionDue then ((s.updateJob j.id Job.breakHold).enterRetensionWait j, true)
    else
      ((((s.updateJob j.id fun j => { j with state := .streaming }).updatePort j.drive Port.startStream).updateChannel c
        fun ch => ch.setUpPass (j.passParameters m)), false)

/-- Grants the FREE channel `c` to the oldest wait; a grant whose stream is refused gives the channel back, and the next
wait is granted (R95, R96). -/
def State.grantWaiting (c : ChannelName) : Nat → State → State
  | 0, s => s
  | n + 1, s =>
    match s.waits with
    | [] => s
    | id :: rest =>
      let s := s.setWaits rest
      match s.job id with
      | none => State.grantWaiting c n s
      | some j =>
        let r := (s.updateChannel c (fun ch => ch.grant id j.drive)).requestStream c j
        if r.2 then State.grantWaiting c n (r.1.updateChannel c Channel.toFree) else r.1

/-- Releases a channel: it enters FREE and is granted again if a wait is listed (R96). -/
def State.release (s : State) (c : ChannelName) : State :=
  let s := s.updateChannel c Channel.toFree
  s.grantWaiting c s.waits.length

/-- Releases the channel a job owns, if it owns one (R89, R96). -/
def State.releaseOf (s : State) (id : Nat) : State :=
  match s.channelOf id with
  | some c => s.release c
  | none => s

/-- Withdraws a job's wait at the arbiter (R94). -/
def State.withdrawWait (s : State) (id : Nat) : State := s.setWaits (s.waits.filter (· != id))

/-- The FREE channel a new wait is granted: A if A is FREE, B otherwise (R95). -/
def State.freeChannel (s : State) : Option ChannelName :=
  if s.channelA.state == .free then some .a else if s.channelB.state == .free then some .b else none

/-- A job enters AWAITING_CHANNEL (R69, R95): through a held channel it goes on at once; otherwise its wait begins, and a
FREE channel is granted to it. -/
def State.awaitChannel (s : State) (id : Nat) : State :=
  match s.job id with
  | none => s
  | some j =>
    let s := s.updateJob id fun j => { j with state := .awaitingChannel }
    match s.channelOf id with
    | some c =>
      let r := s.requestStream c j
      if r.2 then r.1.release c else r.1
    | none =>
      match s.freeChannel with
      | none => s.setWaits (s.waits ++ [id])
      | some c =>
        let r := (s.updateChannel c (fun ch => ch.grant id j.drive)).requestStream c j
        if r.2 then r.1.release c else r.1

end Sys2Proof.Machine
end

