-- ==== Sys2Proof/Machine/Scheduling.lean ====
section
/-! DEFINITION. How jobs start on a port and leave it (04, R63 to R66, R74, R82 to R90): offers, positioning, endings and
completion notices. -/

namespace Sys2Proof.Machine

/-- The encoding and data rate of a medium's geometry (R1). -/
def Medium.format (m : Medium) : Encoding × DataRate := (m.geometry.encoding, m.geometry.rate)

/-- A job enters POSITIONING with a positioning request (R66). A port whose conditions hold at entry is on the band at
once (R9). -/
def State.positionJob (s : State) (j : Job) : State :=
  match s.medium j.handle with
  | none => s
  | some m =>
    let s := (s.updateJob j.id fun j => { j with state := .positioning }).updatePort j.drive
      fun p => p.positionRequest j.band m.format
    if (s.port j.drive).arrived then (s.updatePort j.drive Port.enterOnBand).awaitChannel j.id else s

/-- The oldest queued job of a port starts (R64, steps 2 to 4). -/
def State.startJob (s : State) (j : Job) : State :=
  let p := s.port j.drive
  if p.retensionDue then s.enterRetensionWait j
  else if p.state == .onBand && p.band == some j.band && p.atStart then s.awaitChannel j.id
  else s.positionJob j

/-- Whether the MEDIUM entry of a job is present (R64). -/
def State.presentFor (s : State) (j : Job) : Bool :=
  match s.medium j.handle with
  | some m => m.present
  | none => false

/-- A job's completion notice posts through its reservation, with the entry counts as the band stands, and the job leaves
the table (R63, R90, R91). A job whose ending is not decided posts nothing. -/
def State.postNotice (s : State) (id : Nat) : State :=
  match s.job id with
  | none => s
  | some j =>
    match j.ending with
    | none => s
    | some e => (s.post (j.notice e (s.bandEntries j))).removeJob id

/-- Whether a port can be offered: it has no active job and is IDLE or ON_BAND (R64). -/
def State.offerable (s : State) (p : Fin 4) : Bool :=
  (s.activeJob p).isNone && ((s.port p).state == .idle || (s.port p).state == .onBand)

/-- Offers a port to its queued jobs (R64): a job whose medium is not present fails, and the offer passes to the next. -/
def State.offerLoop (p : Fin 4) : Nat → State → State
  | 0, s => s
  | n + 1, s =>
    if s.offerable p then
      match s.queuedJob p with
      | none => s
      | some j =>
        if s.presentFor j then s.startJob j
        else State.offerLoop p n ((s.updateJob j.id fun j => j.decide (.failed .notPresent)).postNotice j.id)
    else s

def State.offer (s : State) (p : Fin 4) : State := s.offerLoop p s.jobs.length

/-- Whether an ending parks the port at once when the job leaves it (R65, R80, R83, R85, R89). -/
def Job.parks (j : Job) (e : Ending) : Bool :=
  j.attributes.park &&
    match e with
    | .done => true
    | .cancelled .host => j.state == .awaitingChannel || j.state == .streaming
    | .cancelled _ | .failed _ => false

/-- Whether a cancel leaves the port to park when it arrives (R65, R84). -/
def Job.parksOnArrival (j : Job) (e : Ending) : Bool :=
  j.attributes.park && e == .cancelled .host && (j.state == .positioning || j.state == .reseating)

/-- The port's next request when a job has left it: a park, a park on arrival, or an offer (R65). `j` is the job as it
stood when it left, with its ending decided. DESIGN CHOICE (log 36): a job whose ending is to park parks its port from IDLE too,
where a DRIVE RESET or a media change has broken its stream off after the host's cancel. -/
def State.afterLeaving (s : State) (j : Job) : State :=
  match j.ending with
  | none => s
  | some e =>
    let p := s.port j.drive
    if j.parks e && (p.state == .idle || p.state == .onBand) then s.updatePort j.drive Port.startPark
    else if j.parksOnArrival e && p.state == .positioning then s.updatePort j.drive fun p => { p with parkOnArrival := true }
    else s.offer j.drive

/-- A job whose ending is decided posts its notice and leaves, and its port is parked or offered (R63, R65). -/
def State.finishJob (s : State) (id : Nat) : State :=
  match s.job id with
  | none => s
  | some j => (s.postNotice id).afterLeaving j

/-- A job's ending is decided, its wait is withdrawn and a channel it owns is released (R63, R89). -/
def State.decideEnding (s : State) (id : Nat) (e : Ending) : State :=
  (s.updateJob id fun j => j.decide e).withdrawWait id

/-- Whether a reading of the job's band stands in the input queue: the pass is drained when none does (R70, log 20). -/
def State.undrained (s : State) (j : Job) : Bool := s.input.any fun r => r.key.inBandOf j

/-- A port that has reached ON_BAND (R65, R66, R74, R84): it parks if its park-on-arrival flag is set; otherwise its job
waits for a channel, or the port is offered. -/
def State.onArrival (s : State) (p : Fin 4) : State :=
  let s := s.updatePort p Port.enterOnBand
  if (s.port p).parkOnArrival then s.updatePort p fun q => { q.startPark with parkOnArrival := false }
  else
    match s.activeJob p with
    | some j => if j.state == .positioning || j.state == .reseating then s.awaitChannel j.id else s
    | none => s.offer p

/-- POSITIONING ends at the event that completes its conditions (R9, R10). -/
def State.checkArrival (s : State) (p : Fin 4) : State := if (s.port p).arrived then s.onArrival p else s

end Sys2Proof.Machine
end

