-- ==== Sys2Proof/Machine/Reconciler.lean ====
section
/-! DEFINITION. Table entries and candidates (06): job open, derivation, identity, and what a reading does at an entry. -/

namespace Sys2Proof.Machine

/-- An entry as job open creates it (R59, R114). -/
def Entry.fresh (key : Key) (size quorum : Nat) : Entry where
  key := key
  size := size
  state := .expected
  best := none
  candidates := []
  readings := 0
  headerOnly := 0
  dropped := 0
  lateVariants := 0
  quorum := quorum
  settledQuorum := none
  amendSource := none
  pinned := false

/-- Sets state and best; the settled quorum is present in SETTLED alone and the amend source in AMENDED alone, and each
is set by the claims that enter those states (R114, R120, R121). -/
def Entry.become (e : Entry) (st : EntryState) (best : Option Nat) : Entry :=
  { e with state := st, best := best, settledQuorum := none, amendSource := none }

/-- SETTLED on candidate `k` takes the quorum as the settled quorum (R119, R59). -/
def Entry.settle (e : Entry) (k : Nat) : Entry :=
  { e with state := .settled, best := some k, settledQuorum := some e.quorum, amendSource := none }

/-- AMENDED with best `k` (R178, R180). -/
def Entry.amend (e : Entry) (k : Nat) (source : AmendSource) : Entry :=
  { e with state := .amended, best := some k, settledQuorum := none, amendSource := some source }

/-- The indices of the clean candidates, oldest first, counted from `i`. -/
def cleanIndices : List Candidate → Nat → List Nat
  | [], _ => []
  | c :: rest, i => if c.clean then i :: cleanIndices rest (i + 1) else cleanIndices rest (i + 1)

/-- The agree count of candidate `k`. -/
def Entry.agreeOf (e : Entry) (k : Nat) : Nat :=
  match e.candidates[k]? with
  | some c => c.agree
  | none => 0

/-- The state and best derived from the candidate list (R119, R120). -/
def Entry.derive (e : Entry) : Entry :=
  match cleanIndices e.candidates 0 with
  | _ :: _ :: _ => e.become .disputed none
  | [k] => if e.quorum ≤ e.agreeOf k then e.settle k else e.become .tentative (some k)
  | [] =>
    if e.candidates.isEmpty then
      if 0 < e.headerOnly then e.become .headerOnly none else e.become .expected none
    else e.become .weak none

/-- Derivation runs at open entries alone (R119). -/
def Entry.deriveIfOpen (e : Entry) : Entry := if e.state.closed then e else e.derive

/-- What job open does to an entry that stands (R59). -/
def Entry.open_ (e : Entry) (quorum : Nat) : Entry :=
  let e := { e with quorum := quorum }
  match e.state with
  | .missing => e.become .expected none
  | .exhausted => e.become .weak none
  | .tentative =>
    match e.best with
    | some k => if quorum ≤ e.agreeOf k then e.settle k else e
    | none => e
  | .expected | .headerOnly | .weak | .settled | .disputed | .synthesized | .amended => e

/-- Job open brings one sector of the band to the job (R59). -/
def State.openEntry (s : State) (key : Key) (size quorum : Nat) : State :=
  match s.entry key with
  | some _ => s.updateEntry key fun e => e.open_ quorum
  | none => s.setEntries (insertEntry (Entry.fresh key size quorum) s.entries)

/-- Job open over all the band's ids, one claim (R59). -/
def State.openEntries (s : State) (keys : List Key) (size quorum : Nat) : State :=
  keys.foldl (fun s k => s.openEntry k size quorum) s

/-! ## Candidates -/

/-- The place in the list, counted from `i`, and the agree count of the candidate with the lowest agree count among those
`p` admits; the oldest of several (R128, R150, R181). -/
def lowestAgree (p : Candidate → Bool) : List Candidate → Nat → Option (Nat × Nat)
  | [], _ => none
  | c :: rest, i =>
    match lowestAgree p rest (i + 1) with
    | none => if p c then some (i, c.agree) else none
    | some (k, a) => if p c && decide (c.agree ≤ a) then some (i, c.agree) else some (k, a)

/-- The bad candidate that a clean version replaces in a full list (R128). -/
def Entry.weakestBad (e : Entry) : Option Nat := (lowestAgree (fun c => !c.clean) e.candidates 0).map Prod.fst

/-- The candidate that leaves a full list for a SYNTH or HOST candidate: the weakest bad one, else the weakest (R181). -/
def Entry.weakest (e : Entry) : Option Nat :=
  match e.weakestBad with
  | some k => some k
  | none => (lowestAgree (fun _ => true) e.candidates 0).map Prod.fst

/-- The frame of candidate `k`. -/
def Entry.frameOf (e : Entry) (k : Nat) : Option Nat := (e.candidates[k]?).map Candidate.frame

/-- A candidate joins at the end of the list (R115). -/
def Entry.join (e : Entry) (c : Candidate) : Entry := { e with candidates := e.candidates ++ [c] }

/-- Candidate `k` leaves, those after it move forward, and the new one joins at the end (R115). -/
def Entry.replace (e : Entry) (k : Nat) (c : Candidate) : Entry := { e with candidates := e.candidates.eraseIdx k ++ [c] }

/-- The first candidate whose data bytes and recorded check value equal the given ones (R116). -/
def State.identical (s : State) (e : Entry) (bytes : List Byte) (check : Word) : Option Nat :=
  e.candidates.findIdx? fun c => c.check == check && s.frameData c.frame e.size == bytes

/-- A reading's agreement with a candidate that is not pinned: the agree count rises, and the uncertain list and flag
narrow (R126). -/
def Candidate.agreeWith (c : Candidate) (r : Reading) (pinned : Bool) : Candidate :=
  let c := { c with agree := satSucc 255 c.agree }
  if pinned then c
  else { c with uncertain := c.uncertain.filter r.uncertain.contains, moreUncertain := c.moreUncertain && r.moreUncertain }

/-- The candidate a reading becomes (R127). -/
def Reading.candidate (r : Reading) (d : ReadingData) (frame : Nat) : Candidate where
  frame := frame
  check := d.check
  clean := d.clean
  origin := .read
  agree := 1
  firstPass := r.pass
  uncertain := r.uncertain
  moreUncertain := r.moreUncertain

/-! ## A reading at its entry -/

/-- What a reading did (R124): the entry after it, the frame its landing place then holds, whether it took a pool frame,
whether it was dropped and whether an agree count rose. -/
structure Taken where
  entry : Entry
  frame : Nat
  usedPool : Bool
  dropped : Bool
  agreed : Bool
  deriving DecidableEq, Repr

def Entry.countDropped (e : Entry) : Entry := { e with dropped := satSucc 255 e.dropped }
def Entry.countLate (e : Entry) : Entry := { e with lateVariants := satSucc 255 e.lateVariants }
def Entry.countReading (e : Entry) : Entry := { e with readings := satSucc 65535 e.readings }

/-- A reading with data in landing frame `frame`, identical to candidate `same` if to any, with `poolFrame` the frame a
claim on the pool would be given (R126 to R131). The counts and the derivation of R129 follow in `State.takeData`. -/
def Entry.meet (e : Entry) (r : Reading) (d : ReadingData) (frame : Nat) (same poolFrame : Option Nat) : Taken :=
  match same with
  | some k =>
    { entry := { e with candidates := e.candidates.modify k fun c => c.agreeWith r e.pinned }
      frame := frame, usedPool := false, dropped := false, agreed := decide (e.agreeOf k < 255) }
  | none =>
    if e.state.closed then { entry := e.countLate, frame := frame, usedPool := false, dropped := true, agreed := false }
    else if e.pinned then { entry := e.countDropped, frame := frame, usedPool := false, dropped := true, agreed := false }
    else if e.candidates.length < Config.candidateSlots then
      match poolFrame with
      | some f => { entry := e.join (r.candidate d frame), frame := f, usedPool := true, dropped := false, agreed := false }
      | none => { entry := e.countDropped, frame := frame, usedPool := false, dropped := true, agreed := false }
    else
      match (if d.clean then e.weakestBad else none) with
      | some k =>
        { entry := e.replace k (r.candidate d frame), frame := (e.frameOf k).getD frame, usedPool := false, dropped := false, agreed := false }
      | none => { entry := e.countDropped, frame := frame, usedPool := false, dropped := true, agreed := false }

/-- Tells the job of a band that one of its readings was taken (R71, R124). -/
def Job.noteTaken (j : Job) (dropped progress : Bool) : Job :=
  { j with readingsTaken := satSucc 65535 j.readingsTaken
           readingsDropped := if dropped then satSucc 65535 j.readingsDropped else j.readingsDropped
           progress := j.progress || progress }

def State.tellTaken (s : State) (r : Reading) (dropped progress : Bool) : State :=
  match s.bandJob r.key.handle r.key.cylinder r.key.head with
  | some j => s.updateJob j.id fun j => j.noteTaken dropped progress
  | none => s

/-- The landing place of a taken reading becomes FREE with the frame it then holds (R93, R124). -/
def State.freePlace (s : State) (d : ReadingData) (frame : Nat) : State :=
  s.updateChannel d.channel fun c => c.setPlace d.place ⟨frame, .free⟩

/-- A header-only reading at its entry (R125). -/
def State.takeHeaderOnly (s : State) (r : Reading) (e : Entry) : State :=
  let e' := ({ e with headerOnly := satSucc 255 e.headerOnly }).deriveIfOpen
  (s.updateEntry r.key fun _ => e').tellTaken r false (e'.state != e.state)

/-- A reading with data at its entry (R123, R126 to R131). -/
def State.takeData (s : State) (r : Reading) (d : ReadingData) (e : Entry) : State :=
  let frame := ((s.channel d.channel).place d.place).frame
  let t := e.meet r d frame (s.identical e (s.frameData frame e.size) d.check) s.pool.head?
  let e' := t.entry.countReading.deriveIfOpen
  let s := if t.usedPool then s.setPool s.pool.tail else s
  (((s.updateEntry r.key fun _ => e').freePlace d t.frame).tellTaken r t.dropped (t.agreed || e'.state != e.state))

/-- The reading `r` has left the head of the queue and acts at its entry (R123). The entry is in the table by R59 and
R182 to R184; were it not, the reading would only give its place back (log 24). -/
def State.reconcile (s : State) (r : Reading) : State :=
  match s.entry r.key, r.data with
  | some e, some d => s.takeData r d e
  | some e, none => s.takeHeaderOnly r e
  | none, some d => (s.freePlace d ((s.channel d.channel).place d.place).frame).tellTaken r true false
  | none, none => s.tellTaken r false false

end Sys2Proof.Machine
end

