-- ==== Sys2Proof/Machine/Synthesis.lean ====
section
/-! DEFINITION. The synthesis unit (07): the judging of a start, the weighted vote, and the placing of a result. -/

namespace Sys2Proof.Machine

/-- The unit is IDLE while it holds no inputs (R142). -/
def Synth.idle (u : Synth) : Bool := u.inputs.isNone

/-- How a request ends (R153), with what its response carries. -/
inductive SynthEnd where
  | atStart (code : RefusalCode) (body : List Word)
  | placed (k count : Nat) (replaced : Option Nat) (contested ties : Nat)
  | notClean (computed voted : Word) (contested ties : Nat)
  | discarded (code : RefusalCode) (contested ties : Nat)
  deriving DecidableEq, Repr

/-- The number of candidates of origin READ (R144). -/
def Entry.readCount (e : Entry) : Nat := e.candidates.countP (fun c => c.origin == .read)

/-- The inputs from candidate index `i` on: the candidates of origin READ, oldest first, with their data bytes and the
bytes of their recorded check values (R145). -/
def State.synthInputs (s : State) (kind : PortKind) (size : Nat) : List Candidate → Nat → List SynthInput
  | [], _ => []
  | c :: rest, i =>
    if c.origin == .read then
      ⟨i, s.frameData c.frame size ++ checkBytes kind c.check, c.agree, c.uncertain⟩ :: s.synthInputs kind size rest (i + 1)
    else s.synthInputs kind size rest (i + 1)

/-- The volume's kind under a handle; a handle that names no MEDIUM entry has none. -/
def State.kindOf (s : State) (handle : Nat) : PortKind :=
  match s.medium handle with
  | some m => m.kind
  | none => .noDrive

def SynthSource.isCommand : SynthSource → Bool
  | .command _ _ _ => true
  | .close _ => false

/-- The tests of a start in their order (R144), with the bodies R153 gives their refusals. -/
def State.judgeStart (s : State) (r : SynthRequest) : State ⊕ (RefusalCode × List Word) :=
  match s.entry r.key with
  | none => .inr (.noEntry, [])
  | some e =>
    match (if r.source.isCommand then s.bandJob r.key.handle r.key.cylinder r.key.head else none) with
    | some j => .inr (.bandActive, [numberWord j.id])
    | none =>
      if e.pinned then .inr (.pinned, [])
      else if !(e.state == .weak || (r.source.isCommand && e.state == .exhausted)) then .inr (.state, [numberWord e.state.number])
      else if e.readCount < Config.synthesisInputs then .inr (.tooFew, [numberWord e.readCount])
      else
        match s.claimFrame with
        | none => .inr (.noFrame, [])
        | some (f, s) =>
          .inl (s.setSynth { s.synth with inHand := some r, workFrame := some f,
                                          inputs := some (s.synthInputs (s.kindOf r.key.handle) e.size e.candidates 0),
                                          kind := s.kindOf r.key.handle, contested := 0, ties := 0 })

/-- A request arrives (R143): judged at once at an idle unit with an empty wait list, otherwise it waits. -/
def State.synthArrive (s : State) (r : SynthRequest) : State ⊕ (RefusalCode × List Word) :=
  if s.synth.idle && s.synth.wait.isEmpty then s.judgeStart r
  else .inl (s.setSynth { s.synth with wait := s.synth.wait ++ [r] })

/-! ## The vote (R146, R147) -/

/-- The byte an input holds at the position its list stands at. -/
def SynthInput.here (i : SynthInput) : Byte := i.bytes.headD 0

/-- The voters at a position: the inputs that do not list it, or all where every input lists it (R146). -/
def voters (inputs : List SynthInput) (position : Nat) : List SynthInput :=
  let free := inputs.filter fun i => !i.uncertain.contains position
  if free.isEmpty then inputs else free

/-- The weight of a byte value: the sum over the voters that give it (R147). -/
def valueWeight (vs : List SynthInput) (b : Byte) : Nat := ((vs.filter fun i => i.here == b).map SynthInput.weight).sum

/-- The greatest weight of a value the voters give. -/
def topWeight (vs : List SynthInput) : Nat := (vs.map fun i => valueWeight vs i.here).foldl max 0

/-- The winning value: of the values with the greatest weight, the one the oldest of their voters gives (R147). -/
def winner (vs : List SynthInput) : Byte :=
  match vs.find? fun i => valueWeight vs i.here == topWeight vs with
  | some i => i.here
  | none => 0

/-- A position is contested when its voters give more than one value (R147). -/
def contestedAt (vs : List SynthInput) : Bool := vs.any fun i => i.here != winner vs

/-- Whether the tie rule decided: another value shares the greatest weight (R147). -/
def tiedAt (vs : List SynthInput) : Bool := vs.any fun i => i.here != winner vs && valueWeight vs i.here == topWeight vs

/-- The votes of a sector: the voted bytes, the contested positions and those the tie rule decided. -/
structure Vote where
  bytes : List Byte
  contested : Nat
  ties : Nat
  deriving DecidableEq, Repr

/-- Votes at `n` positions from `position` on, in ascending order (R147). -/
def voteFrom : Nat → Nat → List SynthInput → Vote
  | 0, _, _ => ⟨[], 0, 0⟩
  | n + 1, position, inputs =>
    let vs := voters inputs position
    let rest := voteFrom n (position + 1) (inputs.map fun i => { i with bytes := i.bytes.tail })
    ⟨winner vs :: rest.bytes, rest.contested + (contestedAt vs).toNat, rest.ties + (tiedAt vs).toNat⟩

/-! ## The placing (R149 to R151) -/

/-- The SYNTH candidate (R150). -/
def synthCandidate (frame : Nat) (check : Word) : Candidate where
  frame := frame
  check := check
  clean := true
  origin := .synth
  agree := 0
  firstPass := 0
  uncertain := []
  moreUncertain := false

/-- The index of the candidate a SYNTH candidate replaces: the weakest bad one of a full list (R150). A full list of a WEAK
or EXHAUSTED entry holds a bad one (R149). -/
def Entry.synthVictim (e : Entry) : Option Nat := if e.candidates.length < Config.candidateSlots then none else e.weakest

/-- A clean result is placed (R150). -/
def State.placeSynth (s : State) (e : Entry) (frame : Nat) (check : Word) (contested ties : Nat) : State × SynthEnd :=
  let c := synthCandidate frame check
  match e.synthVictim with
  | none =>
    let e' := e.join c
    (s.updateEntry e.key fun _ => e'.become .synthesized (some e.candidates.length), .placed e.candidates.length e'.candidates.length none contested ties)
  | some k =>
    let e' := e.replace k c
    let last := e'.candidates.length - 1
    let s := match e.frameOf k with
      | some f => s.returnFrame f
      | none => s
    (s.updateEntry e.key fun _ => e'.become .synthesized (some last), .placed last e'.candidates.length (some k) contested ties)

/-- The claim of a clean result on the table, tested again in order (R149). A result identical to a candidate makes no new one, and
its request ends as though the check had differed (R116, R151). DESIGN CHOICE (log 43): an entry opened anew under the key while the
vote ran, with another size code or volume kind, is not told apart. -/
def State.claimPlacing (s : State) (r : SynthRequest) (frame : Nat) (check : Word) (contested ties : Nat) : State × SynthEnd :=
  match s.entry r.key with
  | none => (s.returnFrame frame, .discarded .noEntry contested ties)
  | some e =>
    if r.source.isCommand && (s.bandJob r.key.handle r.key.cylinder r.key.head).isSome then
      (s.returnFrame frame, .discarded .bandActive contested ties)
    else if e.pinned then (s.returnFrame frame, .discarded .pinned contested ties)
    else if !(e.state == .weak || e.state == .exhausted) then (s.returnFrame frame, .discarded .state contested ties)
    else
      match s.identical e (s.frameData frame e.size) check with
      | some _ => (s.returnFrame frame, .notClean check check contested ties)
      | none => s.placeSynth e frame check contested ties

/-- The unit is left without a request in hand, inputs or work frame; the tallies stay as the vote left them. -/
def Synth.release (u : Synth) (contested ties : Nat) : Synth :=
  { u with inHand := none, workFrame := none, inputs := none, contested := contested, ties := ties }

/-- The positions of a vote: the length of its inputs, which is the sector length and the check bytes (7.3). -/
def votePositions (inputs : List SynthInput) : Nat :=
  match inputs with
  | i :: _ => i.bytes.length
  | [] => 0

/-- The end of the vote (R147, R148, R160): every voted byte stands at its position in the work frame, the check value's after
the data; the check is computed over the data bytes and compared with the voted check value, and the result is placed or
discarded. The unit is then idle. Of a sector as long as the frame, the check bytes lie beyond it and are not stored (log 25). -/
def State.endVote (s : State) (r : SynthRequest) (inputs : List SynthInput) (frame : Nat) : State × SynthEnd :=
  let kind := s.synth.kind
  let n := votePositions inputs
  let v := voteFrom n 0 inputs
  let data := v.bytes.take (n - checkLength kind)
  let voted := checkOfBytes (v.bytes.drop (n - checkLength kind))
  let computed := dataCheck kind data
  let s := (s.writeFrame frame 0 v.bytes).setSynth (s.synth.release v.contested v.ties)
  if computed == voted then s.claimPlacing r frame voted v.contested v.ties
  else (s.returnFrame frame, .notClean computed voted v.contested v.ties)

/-- The response of a SYNTHESIZE whose request has ended (R153). -/
def State.answerSynth (s : State) (c : Ctx) (key : Key) (via : Option Via) : SynthEnd → State
  | .atStart code body => s.refuse c code body
  | .placed k count replaced contested ties =>
    s.answer c .done [key.wordVia via, numberWord k, numberWord count, optionWord replaced, numberWord contested, numberWord ties]
  | .notClean computed voted contested ties => s.answer c .synthFailed [computed, voted, numberWord contested, numberWord ties]
  | .discarded code contested ties => s.answer c .synthFailed [numberWord code.number, numberWord contested, numberWord ties]

/-- The context of a SYNTHESIZE that answers when its request ends. Its level is no longer needed. -/
def synthCtx (q : Queue) (tag : BitVec 8) : Ctx := ⟨q, tag, 40, 0⟩

end Sys2Proof.Machine
end

