-- ==== Sys2Proof/Machine/Jobs.lean ====
section
/-! DEFINITION. The close of a job, the decision after a pass, and the ends of passes (04, R70 to R81; 05, R97, R102,
R110). -/

namespace Sys2Proof.Machine

/-! ## The close (R78 to R81, R152) -/

/-- Whether a close asks for a synthesis of an entry (R78). -/
def Entry.wantsSynthesis (e : Entry) : Bool :=
  e.state == .weak && decide (Config.synthesisInputs ≤ e.candidates.length) && !e.pinned

/-- A close marks one entry as it then stands (R79); `noFrame` says that its synthesis found the pool empty. -/
def State.markEntry (s : State) (j : Job) (sector : Nat) (noFrame : Bool) : State :=
  let key := j.keyOf sector
  match s.entry key with
  | none => s
  | some e =>
    match e.state with
    | .weak =>
      if e.pinned then s.updateJob j.id fun j => { j with skipped := satSucc 32 j.skipped }
      else
        let s := s.updateEntry key fun e => e.become .exhausted none
        if noFrame then s.updateJob j.id fun j => { j with readingsDropped := satSucc 65535 j.readingsDropped } else s
    | .expected | .headerOnly => s.updateEntry key fun e => e.become .missing none
    | .tentative | .settled | .disputed | .synthesized | .amended | .missing | .exhausted => s

/-- The end of a close: DONE, and the notice posts (R80). -/
def State.closeDone (s : State) (id : Nat) : State :=
  (s.updateJob id fun j => { j.decide .done with closeHand := none, closeLeft := [] }).finishJob id

/-- A close takes the sector ids not yet reached, in ascending order (R78, R79). It stops at an id whose synthesis has
to be waited for. -/
def State.closeFrom (j : Job) : List Nat → State → State
  | [], s => s.closeDone j.id
  | sector :: rest, s =>
    if j.attributes.autoSynthesize && ((s.entry (j.keyOf sector)).any Entry.wantsSynthesis) then
      match s.synthArrive ⟨j.keyOf sector, .close j.id⟩ with
      | .inl s => s.updateJob j.id fun j => { j with closeHand := some sector, closeLeft := rest }
      | .inr (code, _) => State.closeFrom j rest (s.markEntry j sector (code == .noFrame))
    else State.closeFrom j rest (s.markEntry j sector false)

/-- A job enters CLOSING (R72, R78). A channel it holds is released, and its hold remaining becomes 0 (R97). -/
def State.enterClosing (s : State) (j : Job) : State :=
  let s := s.updateJob j.id fun j => { j with state := .closing }
  let s := match s.channelOf j.id with
    | some c => (s.updateJob j.id fun j => { j with holdRemaining := 0 }).release c
    | none => s
  State.closeFrom j (s.idsOf j) s

/-- Whether a request's end says that the pool was empty (R152). -/
def SynthEnd.noFrame : SynthEnd → Bool
  | .atStart .noFrame _ => true
  | .atStart _ _ | .placed .. | .notClean .. | .discarded .. => false

/-- The request for the entry in hand of a close has ended: a close that was stopped posts its notice, and any other marks
the entry and goes on (R81, R152). -/
def State.resumeClose (s : State) (id : Nat) (r : SynthEnd) : State :=
  match s.job id with
  | none => s
  | some j =>
    match j.closeHand with
    | none => s
    | some sector =>
      let s := s.updateJob id fun j => { j with closeHand := none }
      if j.ending.isSome then s.finishJob id
      else State.closeFrom j j.closeLeft (s.markEntry j sector r.noFrame)

/-- A request's end is reported to its source (R151, R153). -/
def State.reportSynth (s : State) (r : SynthRequest) (e : SynthEnd) : State :=
  match r.source with
  | .command q tag via => s.answerSynth (synthCtx q tag) r.key via e
  | .close id => s.resumeClose id e

/-- The oldest waiting requests are judged until one starts or the list is empty (R143). -/
def State.serveLoop : Nat → State → State
  | 0, s => s
  | n + 1, s =>
    if s.synth.idle then
      match s.synth.wait with
      | [] => s
      | r :: rest =>
        let s := s.setSynth { s.synth with wait := rest }
        match s.judgeStart r with
        | .inl s => s
        | .inr (code, body) => State.serveLoop n (s.reportSynth r (.atStart code body))
    else s

/-- How many requests may be judged before the unit votes or its wait list is empty: those that wait, and one for each
sector id a waiting close has not reached. -/
def State.serveBound (s : State) : Nat := s.synth.wait.length + (s.jobs.map fun j => j.closeLeft.length).sum

def State.serveNext (s : State) : State := s.serveLoop s.serveBound

/-! ## The decision after a pass (R72 to R74) -/

/-- Whether an entry needs no further pass: closed or DISPUTED (R72). -/
def State.needsNoPass (s : State) (key : Key) : Bool :=
  (s.entry key).any fun e => e.state.closed || e.state == .disputed

/-- The tolerance after a pass when the job goes round again (R73). -/
def Job.escalate (j : Job) : Job :=
  if j.attributes.escalate && !j.progress then { j with tolerance := satSucc 7 j.tolerance } else j

/-- Asks the port for a reseat (R74). -/
def State.reseatJob (s : State) (j : Job) : State :=
  (s.updateJob j.id fun j => { j with state := .reseating }).updatePort j.drive fun p => p.reseatRequest j.band

/-- What follows a drained pass (R72). -/
def State.decidePass (s : State) (j : Job) : State :=
  if (s.idsOf j).all fun sector => s.needsNoPass (j.keyOf sector) then s.enterClosing j
  else if j.passesRun < j.attributes.passLimit then
    let s := s.updateJob j.id Job.escalate
    if (s.port j.drive).kind == .cartridge || j.attributes.reseat then s.reseatJob j else s.awaitChannel j.id
  else s.enterClosing j

/-- A job in STREAMING, DRAINING, with no reading left in the queue: its pass is judged, or its notice posts (R63, R70). -/
def State.checkDrained (s : State) (id : Nat) : State :=
  match s.job id with
  | none => s
  | some j =>
    if j.state == .streaming && j.phase == .draining && !s.undrained j then
      if j.ending.isSome then s.finishJob id else s.decidePass j
    else s

/-! ## The ends of passes -/

/-- The job of the pass that runs through channel `c`. -/
def State.passJob (s : State) (c : ChannelName) : Option Job := (s.channel c).owner.bind s.job

/-- A pass that ends normally is counted, the consecutive fault count becomes 0 and the hold falls by 1 (R70, R77, R97). -/
def Job.endPass (j : Job) : Job :=
  { j with passesRun := satSucc 15 j.passesRun, consecutiveFaults := 0, holdRemaining := j.holdRemaining - 1, phase := .draining }

/-- A pass ends normally (R16, R70, R97, R102): the channel is kept while the hold is above 0, and is otherwise released. DESIGN CHOICE
(log 44): a channel that is kept has no end pending from its entry into HELD on. -/
def State.endPassNormally (s : State) (c : ChannelName) : State :=
  match s.passJob c with
  | none => s
  | some j =>
    let s := (s.updatePort j.drive Port.endStream).updateJob j.id Job.endPass
    let s := if 1 < j.holdRemaining then s.updateChannel c fun ch => { ch.dropReceipt with state := .held, endPending := none } else s.release c
    s.checkDrained j.id

/-- A pass ended by a cancel does not count; its hold is broken already (R85, R102). -/
def State.endPassCancelled (s : State) (c : ChannelName) : State :=
  match s.passJob c with
  | none => s
  | some j =>
    let s := (s.updatePort j.drive Port.endStream).updateJob j.id fun j => { j with phase := .draining }
    (s.release c).checkDrained j.id

/-- A stream cut off by a media change or DRIVE RESET: the reading in receipt is discarded, the channel released, and
the pass does not count (R70, R86, R87, R110). The port is brought to its state by the caller's rule. -/
def State.cutStream (s : State) (j : Job) : State :=
  (s.updateJob j.id fun j => { j with phase := .draining }).releaseOf j.id

/-- A watchdog fault counts as a pass and as a fault, and breaks the hold (R70, R77). The hold breaks as it stands, without the
decrement of R70 and R97 before it: a hold of 1 is broken too (log 41). -/
def Job.endFaulted (j : Job) : Job :=
  { j.breakHold with passesRun := satSucc 15 j.passesRun, faults := satSucc 255 j.faults, consecutiveFaults := satSucc 2 j.consecutiveFaults,
                     phase := .draining }

/-- The reason a second consecutive fault gives (R77). -/
def watchdogReason (kind : PortKind) : FailReason :=
  match kind with
  | .cartridge => .noMark
  | .floppy | .noDrive => .noIndex

/-- The stream watchdog has expired (R15, R17, R77): the pass ends as a fault, and a second consecutive fault faults the
port and fails the job. -/
def State.endPassFaulted (s : State) (j : Job) : State :=
  let s := (s.updatePort j.drive Port.endStream).updateJob j.id Job.endFaulted
  let s := if 1 ≤ j.consecutiveFaults then
      (s.updatePort j.drive fun p => p.enterFaulted .repeatedWatchdog).updateJob j.id
        fun k => k.decide (.failed (watchdogReason (s.port j.drive).kind))
    else s
  (s.releaseOf j.id).checkDrained j.id

/-! ## Endings from outside (R86, R87) -/

/-- A job that waits for no drain and no close when its ending is decided posts its notice at once (R63). -/
def Job.endsAtOnce (j : Job) : Bool :=
  match j.state with
  | .queued | .positioning | .awaitingChannel | .reseating | .retensionWait => true
  | .streaming | .closing => false

/-- A media change or DRIVE RESET ends one job, whatever its state (R81, R86, R87). Its port is not yet offered. -/
def State.stopJob (s : State) (j : Job) (e : Ending) : State :=
  let s := s.decideEnding j.id e
  if j.endsAtOnce then (s.releaseOf j.id).postNotice j.id
  else if j.state == .streaming then
    let s := s.cutStream j
    if s.undrained j then s else s.postNotice j.id
  else s

/-- When a job has left the table, its port is parked or offered (R65). `j` is the job as it stood with its ending. -/
def State.afterStop (s : State) (j : Job) : State :=
  match s.job j.id with
  | some _ => s
  | none => s.afterLeaving j

end Sys2Proof.Machine
end

