-- ==== Sys2Proof/Machine/Stream.lean ====
section
/-! DEFINITION. What a granted channel makes of the stream of its port (05, R99 to R112): capture start and end, headers,
data fields and readings. -/

namespace Sys2Proof.Machine

/-! ## Readings -/

/-- The number of header-only readings in the input queue (R122). -/
def State.headerOnlyCount (s : State) : Nat := s.input.countP (fun r => r.data.isNone)

/-- A reading's key: the band of the channel's job, and the header's sector id (R107). -/
def Channel.passNumber (c : Channel) : Nat :=
  match c.parameters with
  | some p => p.pass
  | none => 0

/-- An offset takes its place in an ascending list without duplicates (R109). -/
def insertOffset (o : Nat) : List Nat → List Nat
  | [] => [o]
  | x :: rest => if o < x then o :: x :: rest else if o == x then x :: rest else x :: insertOffset o rest

/-- The doubtful offsets of a data field of `n` bytes, ascending, each once (R109). -/
def doubtfulOffsets (marks : List Nat) (n : Nat) : List Nat := (marks.filter (fun o => decide (o < n))).foldl (fun l o => insertOffset o l) []

/-- The data field of the sector in receipt has been received: its reading is formed and joins the input queue, and its
landing place becomes QUEUED (R106 to R109). -/
def State.placeReading (s : State) (c : ChannelName) (j : Job) (r : Receipt) (data : List Byte) (check : Word) (marks : List Nat) : State :=
  let ch := s.channel c
  let kind := (s.port j.drive).kind
  let bytes := data.take (sectorLength r.size)
  let value := checkOfKind kind check
  let offsets := doubtfulOffsets marks (sectorLength r.size + checkLength kind)
  let reading : Reading :=
    { key := j.keyOf r.sector, size := r.size, data := some ⟨dataCheck kind bytes == value, value, c, r.place⟩,
      uncertain := offsets.take Config.uncertainSlots, moreUncertain := decide (Config.uncertainSlots < offsets.length),
      pass := ch.passNumber, position := r.position }
  let s := s.writeFrame (ch.place r.place).frame 0 bytes
  let s := s.updateChannel c fun ch => { ch.setCondition r.place .queued with receipt := none, readingsPlaced := ch.readingsPlaced + 1 }
  s.setInput (s.input ++ [reading])

/-- The data field of the sector in receipt is absent: its place becomes FREE, and a header-only reading joins the input
queue unless 60 stand there, which counts an overrun (R93, R106, R122). -/
def State.placeHeaderOnly (s : State) (c : ChannelName) (j : Job) (r : Receipt) : State :=
  let ch := s.channel c
  let reading : Reading :=
    { key := j.keyOf r.sector, size := r.size, data := none, uncertain := [], moreUncertain := false, pass := ch.passNumber,
      position := r.position }
  let s := s.updateChannel c Channel.dropReceipt
  if s.headerOnlyCount < Config.headerOnlyReadings then
    (s.updateChannel c fun ch => { ch with readingsPlaced := ch.readingsPlaced + 1 }).setInput (s.input ++ [reading])
  else s.updateJob j.id fun j => { j with overrun := satSucc 65535 j.overrun }

/-- The sector in receipt has been placed or discarded: a pending end takes effect (R102, R110). -/
def State.afterSector (s : State) (c : ChannelName) : State :=
  match (s.channel c).endPending with
  | none => s
  | some .captureEnd => s.endPassNormally c
  | some .cancel => s.endPassCancelled c

/-- The sector in receipt is discarded. -/
def State.discardSector (s : State) (c : ChannelName) : State := s.updateChannel c Channel.dropReceipt

/-- The data field of the sector in receipt is found absent; under a pending cancel the sector is discarded (R85, R106). -/
def State.sectorAbsent (s : State) (c : ChannelName) (j : Job) (r : Receipt) : State :=
  let s := if (s.channel c).endPending == some .cancel then s.discardSector c else s.placeHeaderOnly c j r
  s.afterSector c

/-- The capture end has come: the pass ends, or the end waits for the sector in receipt (R100 to R102, R110). -/
def State.captureEnd (s : State) (c : ChannelName) : State :=
  let ch := s.channel c
  if ch.receipt.isNone then s.endPassNormally c
  else if ch.endPending.isNone then s.updateChannel c fun ch => { ch with endPending := some .captureEnd }
  else s

/-- Capture begins (R99 to R101). -/
def State.captureStart (s : State) (c : ChannelName) (startId : Option Nat) : State :=
  s.updateChannel c fun ch => { ch with state := .capturing, startId := startId }

/-! ## Headers -/

/-- The fields of a good header (R104); a cartridge header carries the last two alone. -/
structure Header where
  cylinder : Nat
  head : Nat
  sector : Nat
  size : Nat
  deriving DecidableEq, Repr

/-- A wrong-band header ends the pass at once, uncounted, with the hold broken and the channel released (R67, R68, R96). -/
def State.endPassWrongBand (s : State) (c : ChannelName) (j : Job) : State :=
  (((s.updatePort j.drive Port.endStream).updateJob j.id Job.breakHold).discardSector c).release c

/-- The first wrong-band header of a job: verification RETRIED, and the port recalibrates (R67). -/
def State.retryBand (s : State) (c : ChannelName) (j : Job) : State :=
  let s := s.endPassWrongBand c j
  (s.updateJob j.id fun j => { j with verification := .retried, state := .positioning }).updatePort j.drive
    fun p => p.recalibrateRequest j.band

/-- The second wrong-band header fails the job (R68). -/
def State.failBand (s : State) (c : ChannelName) (j : Job) : State :=
  let s := s.endPassWrongBand c j
  (s.updateJob j.id fun j => { j.decide (.failed .wrongBand) with phase := .draining }).checkDrained j.id

/-- The sector of a header that passed every test is captured into the place it took (R104, step 5). -/
def State.capture (s : State) (c : ChannelName) (j : Job) (h : Header) (position : Nat) : State :=
  match (s.channel c).freePlace with
  | some n => s.updateChannel c fun ch => { ch.setCondition n .receiving with receipt := some ⟨n, h.sector, h.size, position, false⟩ }
  | none => s.updateJob j.id fun j => { j with overrun := satSucc 65535 j.overrun }

/-- Geometry, size and capture (R104, steps 3 to 5). -/
def State.judgePlace (s : State) (c : ChannelName) (j : Job) (g : Geometry) (h : Header) (position : Nat) : State :=
  if !g.hasId h.sector then s.updateJob j.id fun j => { j with strayHeaders := satSucc 65535 j.strayHeaders }
  else if h.size != g.sizeCode then s.updateJob j.id fun j => { j with sizeMismatches := satSucc 65535 j.sizeMismatches }
  else s.capture c j h position

/-- The layout list receives the id of a taken header whose band passes, or that comes from a cartridge (R103). -/
def Job.noteLayout (j : Job) (sector : Nat) : Job :=
  if j.layout.length < Config.headersPerPass then { j with layout := j.layout ++ [sector] } else j

/-- A taken good header is judged (R104). A place that step 1 takes is given back at once where a later step fails, so the
place is taken at step 5. -/
def State.judgeHeader (s : State) (c : ChannelName) (j : Job) (m : Medium) (h : Header) (position : Nat) : State :=
  let inBand := m.kind == .cartridge || (h.cylinder == j.cylinder && h.head == j.head)
  if inBand then
    let seen := if m.kind == .cartridge then j.verification else .verified
    (s.updateJob j.id fun j => { j.noteLayout h.sector with verification := seen }).judgePlace c j m.geometry h position
  else
    match j.verification with
    | .unverified => s.retryBand c j
    | .retried => s.failBand c j
    | .verified => s.updateJob j.id fun j => { j with foreignHeaders := satSucc 65535 j.foreignHeaders }

/-- A header met while 40 are taken is not taken and counts as a stray (R103). -/
def State.countStray (s : State) (j : Job) : State := s.updateJob j.id fun j => { j with strayHeaders := satSucc 65535 j.strayHeaders }

/-- A good header is taken at the next position in the pass (R103). -/
def State.takeGoodHeader (s : State) (c : ChannelName) (h : Header) : State :=
  match s.passJob c with
  | none => s
  | some j =>
    match s.medium j.handle with
    | none => s
    | some m =>
      let n := (s.channel c).headersTaken
      if n < Config.headersPerPass then
        (s.updateChannel c fun ch => { ch with headersTaken := n + 1 }).judgeHeader c j m h (n + 1)
      else s.countStray j

/-- A bad header is taken at the next position and counted (R103, R105). -/
def State.takeBadHeader (s : State) (c : ChannelName) : State :=
  match s.passJob c with
  | none => s
  | some j =>
    let n := (s.channel c).headersTaken
    if n < Config.headersPerPass then
      (s.updateChannel c fun ch => { ch with headersTaken := n + 1 }).updateJob j.id
        fun j => { j with headerFailures := satSucc 65535 j.headerFailures }
    else s.countStray j

/-- Whether a channel's pass captures by the start rule FIRST, which acts on a floppy port alone (R100, R101). -/
def Channel.firstRule (c : Channel) : Bool :=
  match c.parameters with
  | some p => p.kind == .floppy && p.startRule == .first
  | none => false

/-- Whether a channel's pass captures by the start rule INDEX (R100). -/
def Channel.indexRule (c : Channel) : Bool :=
  match c.parameters with
  | some p => p.kind == .floppy && p.startRule == .index
  | none => false

/-- The next thing in the stream meets a sector in receipt whose data mark has not come: its data field is absent. The
second component says that the channel goes on to what it met (R101, R106). DESIGN CHOICE (log 16): once the data mark has come,
nothing that this is asked for breaks the data field. -/
def State.meetReceipt (s : State) (c : ChannelName) : State × Bool :=
  let ch := s.channel c
  match ch.receipt, s.passJob c with
  | some r, some j => if r.dataMark then (s, false) else (s.sectorAbsent c j r, ch.endPending.isNone)
  | some _, none => (s, false)
  | none, _ => (s, true)

/-- A good header at channel `c` (R99, R100, R104). -/
def State.goodHeaderAt (s : State) (c : ChannelName) (h : Header) : State :=
  match (s.channel c).state with
  | .armed => if (s.channel c).firstRule then (s.captureStart c (some h.sector)).takeGoodHeader c h else s
  | .capturing =>
    let m := s.meetReceipt c
    if m.2 then
      if (m.1.channel c).firstRule && (m.1.channel c).startId == some h.sector then m.1.captureEnd c else m.1.takeGoodHeader c h
    else m.1
  | .free | .held => s

/-- A bad header at channel `c` (R105, R106). -/
def State.badHeaderAt (s : State) (c : ChannelName) : State :=
  match (s.channel c).state with
  | .capturing =>
    let m := s.meetReceipt c
    if m.2 then m.1.takeBadHeader c else m.1
  | .armed | .free | .held => s

/-- An index at channel `c` (R100, R112). -/
def State.indexAt (s : State) (c : ChannelName) : State :=
  let ch := s.channel c
  let seen := satSucc 2 ch.indexesSeen
  let s := s.updateChannel c fun ch => { ch with indexesSeen := seen }
  if ch.indexRule then
    match ch.state with
    | .armed => s.captureStart c none
    | .capturing => s.captureEnd c
    | .free | .held => s
  else if ch.firstRule && ch.indexesSeen == 1 then s.captureEnd c
  else s

/-- A block mark at channel `c` (R101, R106). -/
def State.blockMarkAt (s : State) (c : ChannelName) : State :=
  match (s.channel c).state with
  | .capturing => (s.meetReceipt c).1
  | .armed | .free | .held => s

/-- A band start mark at channel `c` (R101). While CAPTURING it changes nothing (log 16). -/
def State.bandStartAt (s : State) (c : ChannelName) : State :=
  match (s.channel c).state with
  | .armed => s.captureStart c none
  | .capturing | .free | .held => s

/-- A band end mark at channel `c` (R101): a data field being received is incomplete and its sector discarded. -/
def State.bandEndAt (s : State) (c : ChannelName) : State :=
  match (s.channel c).state with
  | .armed => s.endPassNormally c
  | .capturing =>
    match (s.channel c).receipt, s.passJob c with
    | none, _ => s.captureEnd c
    | some _, none => s
    | some r, some j =>
      if (s.channel c).endPending.isSome then
        if r.dataMark then (s.discardSector c).afterSector c else s.sectorAbsent c j r
      else if r.dataMark then (s.discardSector c).captureEnd c
      else (s.placeHeaderOnly c j r).captureEnd c
  | .free | .held => s

/-- The data mark of the sector in receipt (R101, R106). -/
def State.dataMarkAt (s : State) (c : ChannelName) : State :=
  s.updateChannel c fun ch => { ch with receipt := ch.receipt.map fun r => { r with dataMark := true } }

/-- The end of the data field of the sector in receipt (R106); under a pending cancel the sector is discarded (R85). -/
def State.dataEndAt (s : State) (c : ChannelName) (data : List Byte) (check : Word) (marks : List Nat) : State :=
  match (s.channel c).receipt, s.passJob c with
  | some r, some j =>
    let s := if (s.channel c).endPending == some .cancel then s.discardSector c else s.placeReading c j r data check marks
    s.afterSector c
  | _, _ => s

end Sys2Proof.Machine
end

