-- ==== Sys2Proof/Machine/Transfers.lean ====
section
/-! DEFINITION. The data port (08, R161 to R170; 09, R180, R181): transfers, their words, their ends and the closing record. -/

namespace Sys2Proof.Machine

/-- Pins or unpins the entry of a key (R131, R164). -/
def State.setPinned (s : State) (key : Key) (v : Bool) : State := s.updateEntry key fun e => { e with pinned := v }

/-- The number of data words of a sector: its length in words (R163, R165). -/
def sectorWords (size : Nat) : Nat := sectorLength size / 4

/-- Four bytes as a word, the lowest offset in bits 31 to 24 (R207). -/
def wordOfBytes (bytes : List Byte) : Word := bytes.getD 0 0 ++ bytes.getD 1 0 ++ bytes.getD 2 0 ++ bytes.getD 3 0

/-- A word as four bytes, the lowest offset from bits 31 to 24 (R207). -/
def bytesOfWord (w : Word) : List Byte := [w.extractLsb' 24 8, w.extractLsb' 16 8, w.extractLsb' 8 8, w.extractLsb' 0 8]

/-- The last word of an export: the check value bytes, then pad bytes of 0 (R163, R207). -/
def checkWordOf (kind : PortKind) (check : Word) : Word :=
  match kind with
  | .cartridge => check
  | .floppy | .noDrive => check.extractLsb' 0 16 ++ 0#16

/-- Word `i` of an export (R163). -/
def State.exportWord (s : State) (t : Transfer) (i : Nat) : Word :=
  if i < sectorWords t.size then wordOfBytes (s.memory.readBlock (frameAddress t.frame + 4 * i) 4) else checkWordOf t.kind t.check

/-- The end of a transfer: the direction becomes NONE and the closing record is written (R169). -/
def State.closeTransfer (s : State) (t : Transfer) (outcome : ClosingOutcome) : State :=
  (s.setTransfer none).setClosing (some ⟨t.direction, t.key, t.queue, t.tag, t.total, t.moved, outcome⟩)

/-! ## The completion claim of an inbound transfer (R166, R180, R181) -/

/-- The HOST candidate (R181). -/
def hostCandidate (frame : Nat) (check : Word) (clean : Bool) : Candidate where
  frame := frame
  check := check
  clean := clean
  origin := .host
  agree := 0
  firstPass := 0
  uncertain := []
  moreUncertain := false

/-- The host's version at the entry that holds the key (R180, R181). -/
def State.placeHost (s : State) (t : Transfer) (e : Entry) (clean : Bool) : State × ClosingOutcome :=
  match s.identical e (s.frameData t.frame t.size) t.check with
  | some k => ((s.returnFrame t.frame).updateEntry e.key fun e => e.amend k .hostData, .identical k)
  | none =>
    let c := hostCandidate t.frame t.check clean
    if e.candidates.length < Config.candidateSlots then
      (s.updateEntry e.key fun e => (e.join c).amend e.candidates.length .hostData, .joined e.candidates.length)
    else
      match e.weakest with
      | none => (s.returnFrame t.frame, .noEntry)
      | some k =>
        let last := e.candidates.length - 1
        let s := match e.frameOf k with
          | some f => s.returnFrame f
          | none => s
        (s.updateEntry e.key fun e => (e.replace k c).amend last .hostData, .replaced k last)

/-- The completion claim reads the table as it stands (R135, R166). -/
def State.completionClaim (s : State) (t : Transfer) (clean : Bool) : State × ClosingOutcome :=
  match s.entry t.key with
  | none => (s.returnFrame t.frame, .noEntry)
  | some e =>
    if e.size != t.size || checkLength (s.kindOf t.key.handle) != checkLength t.kind then (s.returnFrame t.frame, .stale)
    else s.placeHost t e clean

/-- The last word of an inbound transfer has been written: the check is computed over the bytes, the direction becomes
NONE and the completion claim is made (R166). -/
def State.completeInbound (s : State) (t : Transfer) : State :=
  let clean := dataCheck t.kind (s.frameData t.frame t.size) == t.check
  let r := s.completionClaim t clean
  r.1.closeTransfer t r.2

/-! ## Accesses (R162, R164, R166) -/

/-- A read of the data port: the next word of an export, or a misuse that returns 0. -/
def State.portRead (s : State) : State :=
  match s.transfer with
  | none => (s.setMisuse).putBus 0
  | some t =>
    match t.direction with
    | .inbound => (s.setMisuse).putBus 0
    | .outbound =>
      let t' := { t with moved := t.moved + 1 }
      let s := s.putBus (s.exportWord t t.moved)
      if t'.total ≤ t'.moved then (s.setPinned t.key false).closeTransfer t' .completed else s.setTransfer (some t')

/-- A write of the data port: a word of an inbound transfer, or a misuse that discards it. -/
def State.portWrite (s : State) (w : Word) : State :=
  match s.transfer with
  | none => s.setMisuse
  | some t =>
    match t.direction with
    | .outbound => s.setMisuse
    | .inbound =>
      let t' := { t with moved := t.moved + 1 }
      let s := s.writeFrame t.frame (4 * t.moved) (bytesOfWord w)
      if t'.total ≤ t'.moved then s.completeInbound t' else s.setTransfer (some t')

/-- An open transfer is ended before its last word, by ABORT TRANSFER or RESTART: an outbound one unpins its entry, an
inbound one returns its frame (R167, R170). -/
def State.endTransferEarly (s : State) (t : Transfer) (outcome : ClosingOutcome) : State :=
  let s := match t.direction with
    | .outbound => s.setPinned t.key false
    | .inbound => s.returnFrame t.frame
  s.closeTransfer t outcome

end Sys2Proof.Machine
end

