-- ==== Sys2Proof/Machine/Operands.lean ====
section
/-! DEFINITION. What the fields of a command record name: the malformed forms (R203), the check chain (R31 to R34), and
geometries, match parts and attributes with their ranges (R36, R46, R47). -/

namespace Sys2Proof.Machine

/-! ## Malformed records (R171, R203) -/

/-- Whether a field of the record holds a number for which R203 gives no meaning. -/
def malformed : HostCommand → Bool
  | .driveConfig port f => decide (3 < port.toNat) || f.kind == 3
  | .park port | .retension port | .driveReset port => decide (3 < port.toNat)
  | .mount _ _ m => decide (3 < m.drive.toNat) || decide (3 < m.level.toNat) || m.kind == 0 || m.kind == 3
  | .defineView _ f => f.limit == 0 || decide (1024 < f.limit.toNat) || decide (3 < f.level.toNat)
  | .setProfile slot _ _ | .clearProfile slot | .readProfile slot => decide (11 < slot.toNat)
  | .lookup _ window => decide (2 < window.toNat)
  | .find _ window states => decide (2 < window.toNat) || states.extractLsb' 10 22 != 0
  | .fetch _ candidate => decide (4 < candidate.toNat)
  | .choose _ candidate => decide (3 < candidate.toNat)
  | .retireBand _ scope | .retireVolume _ scope => decide (1 < scope.toNat)
  | .setTransferLevel level => decide (3 < level.toNat)
  | .status part number => decide (5 < part.toNat) || (part == 1 && decide (3 < number.toNat))
  | .unknown _ | .confirm _ | .unmount _ | .describe _ | .setDefaults _ | .probeProfile _ | .readBand _ | .cancel _ | .hold _ _
  | .amend _ _ | .retire _ | .synthesize _ | .abortTransfer | .clearFlags _ | .restart => false

/-- The port a selector names; malformed selectors are refused before (R190). -/
def portOf (selector : BitVec 8) : Fin 4 := ⟨selector.toNat % 4, Nat.mod_lt _ (by decide)⟩

/-! ## The check chain (R31 to R34) -/

/-- A refusal of the chain: its code and the handle that failed. -/
structure ChainRefusal where
  code : RefusalCode
  handle : Nat
  deriving DecidableEq, Repr

/-- A resolved address: the MEDIUM handle and its entry, the cylinder on that medium, the head and the sector id as
given, and the ALIAS the command came through (2.2). -/
structure Resolved where
  handle : Nat
  medium : Medium
  cylinder : Nat
  head : Nat
  sector : Nat
  via : Option Via
  deriving DecidableEq, Repr

def Resolved.key (r : Resolved) : Key := ⟨r.handle, r.cylinder, r.head, r.sector⟩

def VolumeEntry.level : VolumeEntry → Nat
  | .medium m => m.level
  | .view v => v.level
  | .unused => 0

/-- Steps 1 to 4 (R31): the entry the command names. -/
def State.chainEntry (s : State) (level handle : Nat) : Except ChainRefusal VolumeEntry :=
  if handle = 0 then .error ⟨.nullHandle, handle⟩
  else if 32 ≤ handle then .error ⟨.handleRange, handle⟩
  else
    match s.volume handle with
    | .unused => .error ⟨.notDefined, handle⟩
    | v => if v.level < level then .error ⟨.level, handle⟩ else .ok v

/-- Step 5 (R32): an ALIAS entry onto its target. `cylinder` is absent for a command that names a whole volume. -/
def State.chainView (s : State) (level handle : Nat) (v : View) (cylinder : Option Nat) : Except ChainRefusal (Nat × Medium) :=
  if v.target = 0 then .error ⟨.nullHandle, v.target⟩
  else if 32 ≤ v.target then .error ⟨.handleRange, v.target⟩
  else
    match s.volume v.target with
    | .medium m =>
      if m.level < level then .error ⟨.level, v.target⟩
      else if (cylinder.any fun c => decide (v.limit ≤ c)) then .error ⟨.bandRange, handle⟩
      else .ok (v.target, m)
    | .unused | .view _ => .error ⟨.viewChain, v.target⟩

/-- Steps 1 to 5 for an address: the resolved address before the geometry is tested. -/
def State.chainResolve (s : State) (level handle : Nat) (cylinder head sector : Nat) (named : Bool) : Except ChainRefusal Resolved :=
  match s.chainEntry level handle with
  | .error e => .error e
  | .ok (.medium m) => .ok ⟨handle, m, cylinder, head, sector, none⟩
  | .ok (.view v) =>
    match s.chainView level handle v (if named then some cylinder else none) with
    | .error e => .error e
    | .ok (target, m) => .ok ⟨target, m, cylinder + v.offset, head, sector, some ⟨handle, v.offset, v.limit⟩⟩
  | .ok .unused => .error ⟨.notDefined, handle⟩

/-- Step 6 (R33): the band lies in the geometry. -/
def Resolved.checkBand (r : Resolved) : Except ChainRefusal Resolved :=
  if r.medium.geometry.cylinders ≤ r.cylinder || r.medium.geometry.heads ≤ r.head then .error ⟨.bandRange, r.handle⟩ else .ok r

/-- Step 6 (R33): the key lies in the geometry. -/
def Resolved.checkKey (r : Resolved) : Except ChainRefusal Resolved :=
  match r.checkBand with
  | .error e => .error e
  | .ok r => if r.medium.geometry.hasId r.sector then .ok r else .error ⟨.bandRange, r.handle⟩

/-- Step 7 (R33): READ BAND needs the medium present. -/
def Resolved.checkPresent (r : Resolved) : Except ChainRefusal Resolved :=
  if r.medium.present then .ok r else .error ⟨.notPresent, r.handle⟩

/-- Steps 1 to 6 on a band (R34). -/
def State.chainBand (s : State) (level : Nat) (b : BandField) : Except ChainRefusal Resolved :=
  match s.chainResolve level b.handle.toNat b.cylinder.toNat b.head.toNat 0 true with
  | .error e => .error e
  | .ok r => r.checkBand

/-- Steps 1 to 6 on a key (R34). -/
def State.chainKey (s : State) (level : Nat) (k : KeyField) : Except ChainRefusal Resolved :=
  match s.chainResolve level k.handle.toNat k.cylinder.toNat k.head.toNat k.sector.toNat true with
  | .error e => .error e
  | .ok r => r.checkKey

/-- Steps 1 to 7 on a band (R34). -/
def State.chainReadBand (s : State) (level : Nat) (b : BandField) : Except ChainRefusal Resolved :=
  match s.chainBand level b with
  | .error e => .error e
  | .ok r => r.checkPresent

/-- Steps 1 to 5 on a volume (R34): no cylinder to compare. -/
def State.chainVolume (s : State) (level : Nat) (handle : BitVec 6) : Except ChainRefusal Resolved :=
  s.chainResolve level handle.toNat 0 0 0 false

/-! ## Geometries (R36) -/

def encodingOf (n : Nat) : Option Encoding :=
  match n with
  | 0 => some .fm
  | 1 => some .mfm
  | 2 => some .fixed
  | _ => none

def rateOf (n : Nat) : DataRate :=
  match n with
  | 0 => .k250
  | 1 => .k300
  | 2 => .k500
  | _ => .fixed

def kindOfNumber (n : Nat) : PortKind :=
  match n with
  | 1 => .floppy
  | 2 => .cartridge
  | _ => .noDrive

/-- The tests of a geometry in the order of R36's table, each with its field. -/
def geometryTests (kind : PortKind) (g : GeometryWord) (m : MediumField) : List (GeometryField × Bool) :=
  let floppy := kind == .floppy
  [(.cylinders, decide (1 ≤ g.cylinders.toNat) && decide (g.cylinders.toNat ≤ if floppy then 100 else 1024)),
   (.heads, decide (1 ≤ g.heads.toNat) && decide (g.heads.toNat ≤ if floppy then 2 else 48)),
   (.sectorsPerBand, decide (1 ≤ g.sectors.toNat) && decide (g.sectors.toNat ≤ 32)),
   (.firstSectorId, decide (g.firstId.toNat + g.sectors.toNat ≤ 256)),
   (.sizeCode, floppy || m.size == 2),
   (.encoding, if floppy then m.encoding == 0 || m.encoding == 1 else m.encoding == 2),
   (.dataRate, if floppy then m.rate != 3 else m.rate == 3)]

/-- The first field that lies outside its range, if any (R36). -/
def badGeometryField (kind : PortKind) (g : GeometryWord) (m : MediumField) : Option GeometryField :=
  ((geometryTests kind g m).find? fun t => !t.2).map Prod.fst

/-- The geometry the two words give; an encoding number with no name has been refused before (R36). -/
def geometryOf (g : GeometryWord) (m : MediumField) : Geometry where
  cylinders := g.cylinders.toNat
  heads := g.heads.toNat
  sectors := g.sectors.toNat
  firstId := g.firstId.toNat
  sizeCode := m.size.toNat
  encoding := (encodingOf m.encoding.toNat).getD .fixed
  rate := rateOf m.rate.toNat

/-! ## Profiles (R46, R47, R52) -/

def attributesOf (a : AttributeField) : Attributes where
  passLimit := a.passLimit.toNat
  quorum := a.quorum.toNat
  tolerance := a.tolerance.toNat
  escalate := a.escalate
  startRule := if a.startFirst then .first else .index
  reseat := a.reseat
  park := a.park
  autoSynthesize := a.autoSynthesize

def matchOf (m : MatchField) : MatchPart where
  cls := m.cls.toNat
  classMask := m.classMask.toNat
  cylinder := m.cylinder.toNat
  cylinderMask := m.cylinderMask.toNat
  head := m.head.toNat
  anyHead := m.anyHead

/-- The first attribute outside its range in the order of R46: only the pass limit and the quorum can be. -/
def badAttribute (a : AttributeField) : Option ProfileField :=
  if a.passLimit == 0 then some .passLimit
  else if a.quorum == 0 || decide (4 < a.quorum.toNat) then some .quorum
  else none

/-- The first field of a SET PROFILE outside its range, match fields first (R52): of those only the head can be. -/
def badProfileField (m : MatchField) (a : AttributeField) : Option ProfileField :=
  if 47 < m.head.toNat then some .head else badAttribute a

/-- A slot's match part against a band (R47). -/
def MatchPart.passes (m : MatchPart) (cls cylinder head : Nat) : Bool :=
  (m.cls &&& m.classMask) == (cls &&& m.classMask) && (m.cylinder &&& m.cylinderMask) == (cylinder &&& m.cylinderMask)
    && (m.anyHead || m.head == head)

/-- The order in which the slots are tried: X0, X1, 0 to 7 (R48). -/
def slotOrder : List (Fin 10) := [8, 9, 0, 1, 2, 3, 4, 5, 6, 7]

/-- Whether a slot is valid and matches the band (R47, R48). -/
def ProfileTable.slotPasses (t : ProfileTable) (cls cylinder head : Nat) (i : Fin 10) : Bool :=
  t.slots[i].any fun p => p.matching.passes cls cylinder head

/-- The governing profile of a band: its slot identity, 10 for DEFAULT, and its attributes (R48). -/
def ProfileTable.search (t : ProfileTable) (cls cylinder head : Nat) : Nat × Attributes :=
  match slotOrder.find? (t.slotPasses cls cylinder head) with
  | some i =>
    match t.slots[i] with
    | some p => (i.val, p.attributes)
    | none => (10, t.default)
  | none => (10, t.default)

end Sys2Proof.Machine
end

