-- ==== Sys2Proof/Machine/DriveCommands.lean ====
section
/-! DEFINITION. The four drive commands (01, R3, R4, R23, R24, R26, R87). -/

namespace Sys2Proof.Machine

/-- Whether a job of the port, queued or active, is in the job table (R3). -/
def State.portHasJob (s : State) (p : Fin 4) : Bool := s.jobs.any fun j => j.drive == p

/-- The port kind a DRIVE CONFIG gives (R203). -/
def configKind (f : ConfigField) : PortKind := kindOfNumber f.kind.toNat

/-- Whether every value of a DRIVE CONFIG lies in its range of R2. -/
def configInRange (f : ConfigField) : Bool :=
  decide (1 ≤ f.settle.toNat) && decide (f.settle.toNat ≤ 60)
    && decide (100 ≤ f.index.toNat) && decide (f.index.toNat ≤ 2000)
    && decide (500 ≤ f.mark.toNat) && decide (f.mark.toNat ≤ 8000)
    && decide (4 ≤ f.interval.toNat) && decide (f.interval.toNat ≤ 64)

/-- The six values of a DRIVE CONFIG, taken by the port (R3). -/
def Port.takeConfig (p : Port) (f : ConfigField) : Port :=
  { p with kind := configKind f, settleTime := f.settle.toNat, indexTimeout := f.index.toNat, markTimeout := f.mark.toNat,
           retensionInterval := f.interval.toNat, autoRetension := f.auto }

/-- What an accepted DRIVE CONFIG makes of the port (R3). -/
def Port.configure (p : Port) (f : ConfigField) : Port :=
  match configKind f with
  | .noDrive => { p.takeConfig f with state := .offline, ready := false, headCylinder := none, passCount := 0 }
  | .floppy | .cartridge =>
    if configKind f != p.kind then ({ p.takeConfig f with state := .idle, headCylinder := none, passCount := 0 }).inquire
    else ({ p.takeConfig f with state := .idle, passCount := min p.passCount f.interval.toNat }).inquire

/-- DRIVE CONFIG (R3). -/
def State.driveConfig (s : State) (c : Ctx) (p : Fin 4) (f : ConfigField) : State :=
  let port := s.port p
  if port.state == .faulted then s.refuse c .driveFaulted [numberWord (faultNumber port.fault)]
  else if !(port.state == .offline || port.state == .idle) || s.portHasJob p then s.refuse c .driveBusy []
  else if configKind f != port.kind && s.driveMounted p then s.refuse c .inUse []
  else if !configInRange f then s.refuse c .badParameter []
  else
    let s := s.updatePort p fun q => q.configure f
    s.answer c .done [numberWord (s.port p).state.number]

/-- PARK (R24): the answer posts at once, and the park proceeds by R18. -/
def State.park (s : State) (c : Ctx) (p : Fin 4) : State :=
  let port := s.port p
  if port.state == .offline then s.refuse c .driveOffline []
  else if port.state == .faulted then s.refuse c .driveFaulted [numberWord (faultNumber port.fault)]
  else if (port.state == .idle || port.state == .onBand) && (s.activeJob p).isNone then
    (s.answer c .accepted []).updatePort p Port.startPark
  else s.refuse c .driveBusy []

/-- Whether the active job of a port is one that RETENSION must not disturb (R23). -/
def State.retensionBlocked (s : State) (p : Fin 4) : Bool := (s.activeJob p).any fun j => j.state != .retensionWait

/-- RETENSION (R23): the answer posts at acceptance, and the retension starts by R21. -/
def State.retension (s : State) (c : Ctx) (p : Fin 4) : State :=
  let port := s.port p
  if port.state == .offline then s.refuse c .driveOffline []
  else if port.state == .faulted then s.refuse c .driveFaulted [numberWord (faultNumber port.fault)]
  else if port.kind != .cartridge then s.refuse c .notCartridge []
  else if !(port.state == .idle || port.state == .onBand) || s.retensionBlocked p then s.refuse c .driveBusy []
  else if !port.ready then s.refuse c .notReady []
  else (s.answer c .accepted []).updatePort p Port.startRetension

/-- The jobs a DRIVE RESET cancels: those of the port whose ending is not decided (R26). -/
def State.cancelledBy (s : State) (p : Fin 4) : Nat := s.jobs.countP fun j => j.drive == p && j.ending.isNone

/-- The jobs of a port, in opening order. -/
def State.portJobs (s : State) (p : Fin 4) : List Job := s.jobs.filter fun j => j.drive == p

/-- DRIVE RESET ends the jobs of its port in opening order (R87). -/
def State.resetJobs (s : State) : List Job → State
  | [] => s
  | j :: rest => (s.stopJob j (.cancelled .driveReset)).resetJobs rest

/-- After DRIVE RESET, the port is parked or offered as its active job has left it (R65, R87). -/
def State.afterReset (s : State) (active : Option Job) : State :=
  match active with
  | some j => s.afterStop (j.decide (.cancelled .driveReset))
  | none => s

/-- DRIVE RESET (R26, R87, R194): the notices that post at once come first, then the answer. -/
def State.driveReset (s : State) (c : Ctx) (p : Fin 4) : State :=
  let port := s.port p
  match port.state with
  | .retensioning => s.refuse c .driveBusy []
  | .offline => s.answer c .done [numberWord 0, numberWord 0]
  | .idle | .positioning | .onBand | .streaming | .parking | .faulted =>
    let active := s.activeJob p
    let count := s.cancelledBy p
    let s := ((s.updatePort p Port.driveReset).resetJobs (s.portJobs p)).afterReset active
    s.answer c .done [numberWord count, numberWord (faultNumber port.fault)]

end Sys2Proof.Machine
end

