-- ==== Sys2Proof/Machine/VolumeCommands.lean ====
section
/-! DEFINITION. MOUNT, ALIAS, CONFIRM, UNMOUNT and DESCRIBE (02, R36 to R43). -/

namespace Sys2Proof.Machine

/-- The refusal of a check chain step (R31 to R33). -/
def State.refuseChain (s : State) (c : Ctx) (r : ChainRefusal) : State := s.refuseHandle c r.code r.handle []

/-- The reason in a MOUNT answer when present is no, and the entry in conflict (R38). -/
inductive PresentReason where
  | present
  | conflict (handle : Nat)
  | notReady
  deriving DecidableEq, Repr

/-- How a new MEDIUM entry of drive `p` stands (R38): a conflict is tested before the ready flag. -/
def State.mountReason (s : State) (p : Fin 4) : PresentReason :=
  match s.presentHandle p with
  | some h => .conflict h
  | none => if (s.port p).ready then .present else .notReady

/-- The answer body of MOUNT: the present flag, the reason and the handle in conflict, absent where they are (log 12). -/
def PresentReason.body : PresentReason → List Word
  | .present => [1, absentWord, absentWord]
  | .conflict h => [0, numberWord RefusalCode.presentConflict.number, numberWord h]
  | .notReady => [0, numberWord RefusalCode.notReady.number, absentWord]

/-- MOUNT (R37, R38). Every refusal made here names the handle being defined; the MALFORMED one, made before, names none (log 45). -/
def State.mount (s : State) (c : Ctx) (handle : BitVec 6) (g : GeometryWord) (m : MediumField) : State :=
  let h := handle.toNat
  let kind := kindOfNumber m.kind.toNat
  let p := portOf (m.drive.setWidth 8)
  let port := s.port p
  if h = 0 then s.refuseHandle c .nullHandle h []
  else if 32 ≤ h then s.refuseHandle c .handleRange h []
  else if s.volume h != .unused then s.refuseHandle c .handleInUse h [Config.entryKindWord (s.volume h).kind]
  else if m.level.toNat < c.level then s.refuseHandle c .level h []
  else
    match badGeometryField kind g m with
    | some f => s.refuseHandle c .badGeometry h [Config.geometryFieldWord f]
    | none =>
      if port.state == .offline || port.kind != kind then
        s.refuseHandle c .kindMismatch h [numberWord port.kind.number, numberWord port.state.number]
      else
        let reason := s.mountReason p
        (s.setVolume h (.medium ⟨p, kind, geometryOf g m, m.cls.toNat, m.level.toNat, reason == .present⟩)).answer c .done reason.body

/-- The target of an ALIAS being defined (R39, steps 4 to 6). -/
def State.viewTarget (s : State) (level : Nat) (f : ViewField) : Except ChainRefusal Medium :=
  match s.chainEntry level f.target.toNat with
  | .error e => .error e
  | .ok (.medium m) =>
    if m.geometry.cylinders < f.offset.toNat + f.limit.toNat then .error ⟨.bandRange, f.target.toNat⟩ else .ok m
  | .ok (.view _) | .ok .unused => .error ⟨.viewChain, f.target.toNat⟩

/-- ALIAS (R39). -/
def State.defineView (s : State) (c : Ctx) (handle : BitVec 6) (f : ViewField) : State :=
  let h := handle.toNat
  if h = 0 then s.refuseHandle c .nullHandle h []
  else if 32 ≤ h then s.refuseHandle c .handleRange h []
  else if s.volume h != .unused then s.refuseHandle c .handleInUse h []
  else if f.level.toNat < c.level then s.refuseHandle c .level h []
  else
    match s.viewTarget c.level f with
    | .error e => s.refuseChain c e
    | .ok _ => (s.setVolume h (.view ⟨f.target.toNat, f.offset.toNat, f.limit.toNat, f.level.toNat⟩)).answer c .done []

/-- CONFIRM (R40). An entry already present passes the checks, whatever the port's ready flag, and is answered DONE with nothing
changed. -/
def State.confirm (s : State) (c : Ctx) (handle : BitVec 6) : State :=
  let h := handle.toNat
  match s.chainEntry c.level h with
  | .error e => s.refuseChain c e
  | .ok (.view _) | .ok .unused => s.refuseHandle c .notMedium h []
  | .ok (.medium m) =>
    match s.presentHandle m.drive with
    | some other =>
      if other != h then s.refuseHandle c .presentConflict h [numberWord other]
      else s.answer c .done []
    | none =>
      if !(s.port m.drive).ready then s.refuseHandle c .notReady h []
      else (s.setPresent h true).answer c .done []

/-- The number of table entries keyed by a handle (R41). -/
def State.entriesOf (s : State) (h : Nat) : Nat := s.entries.countP fun e => e.key.handle == h

/-- The number of jobs whose resolved handle is `h` (R41). -/
def State.jobsOf (s : State) (h : Nat) : Nat := s.jobs.countP fun j => j.handle == h

/-- The number of jobs opened through an ALIAS (R42). -/
def State.jobsVia (s : State) (h : Nat) : Nat := s.jobs.countP fun j => j.viaHandle == some h

/-- UNMOUNT (R41, R42). -/
def State.unmount (s : State) (c : Ctx) (handle : BitVec 6) : State :=
  let h := handle.toNat
  match s.chainEntry c.level h with
  | .error e => s.refuseChain c e
  | .ok (.view _) =>
    if 0 < s.jobsVia h then s.refuseHandle c .inUse h [numberWord (s.jobsVia h)]
    else (s.setVolume h .unused).answer c .done []
  | .ok (.medium _) | .ok .unused =>
    if 0 < s.entriesOf h || 0 < s.jobsOf h || 0 < s.viewsOf h then
      s.refuseHandle c .inUse h [numberWord (s.entriesOf h), numberWord (s.jobsOf h), numberWord (s.viewsOf h)]
    else (s.setVolume h .unused).answer c .done []

/-- The answer body of DESCRIBE (R43): the fields in the order of its table, one word each. DESIGN CHOICE (log 38): as in that
table, no word of its own says MEDIUM or ALIAS, which the length of the answer tells apart. -/
def State.describeBody (s : State) (h : Nat) : VolumeEntry → List Word
  | .medium m =>
    [numberWord m.drive.val, numberWord m.kind.number, numberWord m.geometry.cylinders, numberWord m.geometry.heads,
     numberWord m.geometry.sectors, numberWord m.geometry.firstId, numberWord m.geometry.sizeCode,
     numberWord m.geometry.encoding.number, numberWord m.geometry.rate.number, numberWord m.cls, numberWord m.level,
     flagWord m.present, numberWord (s.entriesOf h), numberWord (s.jobsOf h), numberWord (s.viewsOf h)]
  | .view v => [numberWord v.target, numberWord v.offset, numberWord v.limit, numberWord v.level, numberWord (s.jobsVia h)]
  | .unused => []

/-- DESCRIBE (R43). -/
def State.describe (s : State) (c : Ctx) (handle : BitVec 6) : State :=
  match s.chainEntry c.level handle.toNat with
  | .error e => s.refuseChain c e
  | .ok v => s.answer c .done (s.describeBody handle.toNat v)

end Sys2Proof.Machine
end

