-- ==== Sys2Proof/Machine/ProfileCommands.lean ====
section
/-! DEFINITION. The five profile commands (03, R52 to R57). -/

namespace Sys2Proof.Machine

/-- The slot of a selector that names one: 0 to 7, X0 as 8, X1 as 9 (R203). -/
def slotOf (selector : BitVec 8) : Option (Fin 10) := if h : selector.toNat < 10 then some ⟨selector.toNat, h⟩ else none

/-- SET PROFILE (R52, R53). -/
def State.setProfile (s : State) (c : Ctx) (selector : BitVec 8) (m : MatchField) (a : AttributeField) : State :=
  match slotOf selector with
  | none => s.refuse c .badParameter []
  | some i =>
    match badProfileField m a with
    | some f => s.refuse c .badProfile [Config.profileFieldWord f]
    | none =>
      let valid := s.profiles.slots[i].isSome
      (s.setProfiles { s.profiles with slots := s.profiles.slots.set i (some ⟨matchOf m, attributesOf a⟩) }).answer c .done
        [flagWord valid]

/-- The number of valid slots (R54). -/
def ProfileTable.validCount (t : ProfileTable) : Nat := t.slots.toList.countP Option.isSome

/-- CLEAR PROFILE (R52, R54). -/
def State.clearProfile (s : State) (c : Ctx) (selector : BitVec 8) : State :=
  match slotOf selector with
  | some i =>
    let valid := s.profiles.slots[i].isSome
    (s.setProfiles { s.profiles with slots := s.profiles.slots.set i none }).answer c .done [numberWord valid.toNat]
  | none =>
    if selector = 11 then
      (s.setProfiles { s.profiles with slots := Vector.replicate 10 none }).answer c .done [numberWord s.profiles.validCount]
    else s.refuse c .badParameter []

/-- SET DEFAULTS (R52, R55). -/
def State.setDefaults (s : State) (c : Ctx) (a : AttributeField) : State :=
  match badAttribute a with
  | some f => s.refuse c .badProfile [Config.profileFieldWord f]
  | none => (s.setProfiles { s.profiles with default := attributesOf a }).answer c .done [s.profiles.default.word]

/-- The answer body of READ PROFILE for a slot (R56); match part and attributes are absent in a slot that is not valid. -/
def slotBody (i : Nat) : Option Profile → List Word
  | some p => [numberWord i, 1] ++ p.matching.words ++ [p.attributes.word]
  | none => [numberWord i, 0, absentWord, absentWord, absentWord]

/-- READ PROFILE (R52, R56). -/
def State.readProfile (s : State) (c : Ctx) (selector : BitVec 8) : State :=
  match slotOf selector with
  | some i => s.answer c .done (slotBody i.val s.profiles.slots[i])
  | none =>
    if selector = 10 then s.answer c .done [numberWord 10, s.profiles.default.word]
    else s.refuse c .badParameter []

/-- The governing profile of a resolved band (R48, R49). -/
def State.searchProfile (s : State) (r : Resolved) : Nat × Attributes := s.profiles.search r.medium.cls r.cylinder r.head

/-- PROBE PROFILE (R57). -/
def State.probeProfile (s : State) (c : Ctx) (b : BandField) : State :=
  match s.chainBand c.level b with
  | .error e => s.refuseChain c e
  | .ok r =>
    let found := s.searchProfile r
    s.answer c .done
      [keyWord r.handle r.cylinder r.head 0, optionWord (r.via.map Via.handle), numberWord r.medium.cls, numberWord found.1, found.2.word]

end Sys2Proof.Machine
end

