-- ==== Sys2Proof/Machine/JobCommands.lean ====
section
/-! DEFINITION. READ BAND, CANCEL and HOLD (04, R58 to R61, R82 to R85; 05, R97). -/

namespace Sys2Proof.Machine

/-! ## READ BAND -/

/-- A job as it opens (R60, R62). -/
def Job.opened (id : Nat) (r : Resolved) (level : Nat) (found : Nat × Attributes) (q : Queue) (tag : BitVec 8) : Job where
  id := id
  handle := r.handle
  cylinder := r.cylinder
  head := r.head
  viaHandle := r.via.map Via.handle
  drive := r.medium.drive
  level := level
  slot := found.1
  attributes := found.2
  state := .queued
  phase := .capturing
  ending := none
  passesRun := 0
  consecutiveFaults := 0
  verification := .unverified
  progress := false
  holdRemaining := 0
  holdBroken := false
  tolerance := found.2.tolerance
  readingsTaken := 0
  readingsDropped := 0
  overrun := 0
  strayHeaders := 0
  foreignHeaders := 0
  headerFailures := 0
  sizeMismatches := 0
  faults := 0
  skipped := 0
  layout := []
  queue := q
  tag := tag
  closeHand := none
  closeLeft := []

/-- The keys of a resolved band at its geometry ids (R58). -/
def Resolved.bandKeys (r : Resolved) : List Key := r.medium.geometry.ids.map fun i => ⟨r.handle, r.cylinder, r.head, i⟩

/-- The number of a band's ids that have no entry (R58). -/
def State.missingEntries (s : State) (keys : List Key) : Nat := keys.countP fun k => (s.entry k).isNone

/-- The free entries of the table (R58, R113). -/
def State.freeEntries (s : State) : Nat := Config.tableEntries - s.entries.length

/-- The id counter after an id is given: the next of 0 to 255, passing over ids of jobs in the table (R61). -/
def nextId (inUse : List Nat) : Nat → Nat → Nat
  | 0, id => id
  | n + 1, id =>
    let next := (id + 1) % 256
    if inUse.contains next then nextId inUse n next else next

/-- A job opens (R59 to R61): its entries, its record, the next id and the place for its notice. -/
def State.openJob (s : State) (c : Ctx) (r : Resolved) (found : Nat × Attributes) : State :=
  let id := s.nextJobId
  let s := s.openEntries r.bandKeys r.medium.geometry.sizeCode found.2.quorum
  let s := s.setJobs (s.jobs ++ [Job.opened id r c.level found c.queue c.tag])
  (s.setNextJobId (nextId (s.jobs.map Job.id) (Config.jobSlots + 1) id)).reserve

/-- The body of the ACCEPTED answer (R60). -/
def acceptedBody (id slot : Nat) (r : Resolved) (created : Nat) : List Word :=
  [numberWord id, numberWord slot, keyWord r.handle r.cylinder r.head 0, optionWord (r.via.map Via.handle),
   numberWord r.medium.drive.val, numberWord created]

/-- READ BAND (R58 to R60, R64). -/
def State.readBand (s : State) (c : Ctx) (b : BandField) : State :=
  match s.chainReadBand c.level b with
  | .error e => s.refuseChain c e
  | .ok r =>
    let missing := s.missingEntries r.bandKeys
    if Config.jobSlots ≤ s.jobs.length then s.refuse c .jobsFull []
    else
      match s.bandJob r.handle r.cylinder r.head with
      | some j => s.refuse c .bandActive [numberWord j.id]
      | none =>
        if s.freeEntries < missing then s.refuse c .tableFull [numberWord missing, numberWord s.freeEntries]
        else
          let found := s.searchProfile r
          ((s.openJob c r found).answer c .accepted (acceptedBody s.nextJobId found.1 r missing)).offer r.medium.drive

/-! ## CANCEL -/

/-- A cancel of a job that waits for no drain: the wait is withdrawn, a held channel released, the notice posts, and the
port is parked or offered as the job's state gives (R83, R84). -/
def State.cancelNow (s : State) (j : Job) : State :=
  ((s.decideEnding j.id (.cancelled .host)).releaseOf j.id).finishJob j.id

/-- A cancel of a job that streams (R85, R110): a pass in capture ends at once between sectors, or at the end of the sector
in receipt. -/
def State.cancelStream (s : State) (j : Job) : State :=
  let s := s.decideEnding j.id (.cancelled .host)
  match j.phase with
  | .draining => (s.releaseOf j.id).checkDrained j.id
  | .capturing =>
    match s.channelOf j.id with
    | none => s
    | some ch =>
      if (s.channel ch).receipt.isNone then s.endPassCancelled ch
      else s.updateChannel ch fun v => { v with endPending := some .cancel }

/-- CANCEL (R82 to R85): the answer posts before the notice of a job it ends at once (R194). Its check 2 alone judges the level, also
where the transfer queue stands at level 0 (R188; log 42). -/
def State.cancel (s : State) (c : Ctx) (id : BitVec 8) : State :=
  match s.job id.toNat with
  | none => s.refuse c .noSuchJob []
  | some j =>
    if j.level < c.level then s.refuse c .level []
    else if j.tooLate then s.refuse c .tooLate []
    else
      let s := s.answer c .done [numberWord j.state.number]
      match j.state with
      | .streaming => s.cancelStream j
      | .queued | .positioning | .awaitingChannel | .reseating | .retensionWait | .closing => s.cancelNow j

/-! ## HOLD -/

/-- HOLD (R97). -/
def State.hold (s : State) (c : Ctx) (id : BitVec 8) (passes : BitVec 5) : State :=
  let n := passes.toNat
  if n < 2 || 16 < n then s.refuse c .badParameter []
  else
    match s.job id.toNat with
    | none => s.refuse c .noSuchJob []
    | some j =>
      if j.level < c.level then s.refuse c .level []
      else if j.tooLate then s.refuse c .tooLate []
      else if 0 < j.holdRemaining then s.answer c .holdIgnored [numberWord j.holdRemaining]
      else (s.updateJob j.id fun k => { k with holdRemaining := n }).answer c .done [numberWord n]

end Sys2Proof.Machine
end

