-- ==== Sys2Proof/Machine/RecordCommands.lean ====
section
/-! DEFINITION. The eight record commands and SYNTHESIZE (09, R171 to R185; 07, R143, R144, R153). -/

namespace Sys2Proof.Machine

/-! ## Common (R171) -/

/-- The key a record command reports: through the ALIAS it named, if it named one. -/
def Resolved.keyReport (r : Resolved) : Word := r.key.wordVia r.via

/-- The band a record command reports, sector id 0. -/
def Resolved.bandReport (r : Resolved) : Word := (Key.mk r.handle r.cylinder r.head 0).wordVia r.via

/-- The volume a record command reports: the handle it named, sector id 0 (R201). DEDUCED (log 32): the cylinder and head that
no rule gives are 0 too. -/
def Resolved.volumeReport (r : Resolved) : Word :=
  match r.via with
  | some v => keyWord v.handle 0 0 0
  | none => keyWord r.handle 0 0 0

/-- A refusal of a record command's own checks (log 13). -/
def State.refuseKey (s : State) (c : Ctx) (r : Resolved) (code : RefusalCode) (body : List Word) : State :=
  s.refuse c code (r.keyReport :: body)

/-- The job of a resolved address's band (R182). -/
def State.jobAt (s : State) (r : Resolved) : Option Job := s.bandJob r.handle r.cylinder r.head

/-! ## LOOKUP and FIND -/

/-- LOOKUP (R172). -/
def State.lookup (s : State) (c : Ctx) (k : KeyField) (window : BitVec 8) : State :=
  match s.chainKey c.level k with
  | .error e => s.refuseChain c e
  | .ok r =>
    match s.entry r.key with
    | none => s.refuseKey c r .noEntry []
    | some e => s.answer c .done (e.words r.via window.toNat)

/-- Whether a cylinder lies within the ALIAS the command named (R173, R184). -/
def Resolved.covers (r : Resolved) (cylinder : Nat) : Bool :=
  match r.via with
  | some v => decide (v.offset ≤ cylinder) && decide (cylinder < v.offset + v.limit)
  | none => true

/-- Whether FIND stops at an entry (R173). -/
def Entry.found (e : Entry) (r : Resolved) (states : Word) : Bool :=
  e.key.handle == r.handle && !e.key.before r.key && r.covers e.key.cylinder && states.getLsbD e.state.number

/-- FIND (R173, R174). -/
def State.find (s : State) (c : Ctx) (k : KeyField) (window : BitVec 8) (states : Word) : State :=
  match s.chainKey c.level k with
  | .error e => s.refuseChain c e
  | .ok r =>
    if states = 0 then s.refuseKey c r .badParameter []
    else
      match s.entries.find? fun e => e.found r states with
      | some e => s.answer c .done (e.words r.via window.toNat)
      | none => s.answer c .nothing []

/-! ## FETCH -/

/-- The candidate a FETCH names (R175): its index and record, or the refusal and the number its body carries. -/
def Entry.chosen (e : Entry) (candidate : BitVec 8) : Except (RefusalCode × Nat) (Nat × Candidate) :=
  if candidate = 4 then
    match e.best with
    | none => .error (.noBest, e.state.number)
    | some k =>
      match e.candidates[k]? with
      | some c => .ok (k, c)
      | none => .error (.noBest, e.state.number)
  else
    match e.candidates[candidate.toNat]? with
    | some c => .ok (candidate.toNat, c)
    | none => .error (.noCandidate, e.candidates.length)

/-- The words of a candidate in the answers of FETCH and CHOOSE (R176, R178). -/
def Candidate.report (cand : Candidate) (k : Nat) : List Word :=
  [numberWord k, numberWord cand.origin.number, numberWord (checkNumber cand.clean), numberWord cand.agree, numberWord cand.firstPass, cand.check]

/-- The transfer an accepted FETCH opens (R161, R163). -/
def outboundTransfer (c : Ctx) (e : Entry) (kind : PortKind) (k : Nat) (cand : Candidate) : Transfer where
  direction := .outbound
  key := e.key
  queue := c.queue
  tag := c.tag
  level := c.level
  frame := cand.frame
  candidate := some k
  size := e.size
  kind := kind
  check := cand.check
  total := sectorWords e.size + 1
  moved := 0

/-- The refusal of a FETCH or AMEND that finds a transfer open (R175, R179). -/
def State.refusePortBusy (s : State) (c : Ctx) (r : Resolved) (t : Transfer) : State :=
  s.refuseKey c r .portBusy [numberWord t.direction.number, t.key.word]

/-- FETCH (R175, R176). -/
def State.fetch (s : State) (c : Ctx) (k : KeyField) (candidate : BitVec 8) : State :=
  match s.chainKey c.level k with
  | .error e => s.refuseChain c e
  | .ok r =>
    match s.entry r.key with
    | none => s.refuseKey c r .noEntry []
    | some e =>
      match e.chosen candidate with
      | .error (code, n) => s.refuseKey c r code [numberWord n]
      | .ok (i, cand) =>
        match s.transfer with
        | some t => s.refusePortBusy c r t
        | none =>
          let t := outboundTransfer c e r.medium.kind i cand
          ((s.setPinned e.key true).setTransfer (some t)).answer c .done
            (r.keyReport :: cand.report i ++ [numberWord e.state.number, numberWord e.size, numberWord t.total])

/-! ## CHOOSE -/

/-- The states in which CHOOSE is accepted (R177). -/
def EntryState.choosable : EntryState → Bool
  | .disputed | .tentative | .weak | .exhausted => true
  | .expected | .headerOnly | .settled | .synthesized | .amended | .missing => false

/-- CHOOSE (R177, R178). -/
def State.choose (s : State) (c : Ctx) (k : KeyField) (candidate : BitVec 8) : State :=
  match s.chainKey c.level k with
  | .error e => s.refuseChain c e
  | .ok r =>
    match s.entry r.key with
    | none => s.refuseKey c r .noEntry []
    | some e =>
      let i := candidate.toNat
      if e.pinned then s.refuseKey c r .pinned []
      else if !e.state.choosable then s.refuseKey c r .state [numberWord e.state.number]
      else
        match e.candidates[i]? with
        | none => s.refuseKey c r .noCandidate [numberWord e.candidates.length]
        | some cand =>
          (s.updateEntry e.key fun e => e.amend i (.chosen i)).answer c .done
            (r.keyReport :: numberWord e.state.number :: cand.report i)

/-! ## AMEND -/

/-- The transfer an accepted AMEND opens (R161, R165). -/
def inboundTransfer (c : Ctx) (e : Entry) (kind : PortKind) (frame : Nat) (check : Word) : Transfer where
  direction := .inbound
  key := e.key
  queue := c.queue
  tag := c.tag
  level := c.level
  frame := frame
  candidate := none
  size := e.size
  kind := kind
  check := check
  total := sectorWords e.size
  moved := 0

/-- AMEND (R179). -/
def State.amend (s : State) (c : Ctx) (k : KeyField) (check : Word) : State :=
  match s.chainKey c.level k with
  | .error e => s.refuseChain c e
  | .ok r =>
    match s.entry r.key with
    | none => s.refuseKey c r .noEntry []
    | some e =>
      if r.medium.kind == .floppy && decide (65535 < check.toNat) then s.refuseKey c r .badParameter []
      else if e.pinned then s.refuseKey c r .pinned []
      else
        match s.transfer with
        | some t => s.refusePortBusy c r t
        | none =>
          match s.claimFrame with
          | none => s.refuseKey c r .noFrame []
          | some (f, s) =>
            let t := inboundTransfer c e r.medium.kind f check
            (s.setTransfer (some t)).answer c .done
              [r.keyReport, numberWord e.state.number, numberWord e.size, check, numberWord t.total]

/-! ## The RETIRE commands -/

/-- The entries leave the table, and their candidates' frames go to the pool (R182). -/
def State.removeEntries (s : State) (gone : List Entry) : State :=
  (s.setEntries (s.entries.filter fun e => !gone.any fun g => g.key == e.key)).returnFrames
    (gone.flatMap fun e => e.candidates.map Candidate.frame)

/-- RETIRE (R182). -/
def State.retire (s : State) (c : Ctx) (k : KeyField) : State :=
  match s.chainKey c.level k with
  | .error e => s.refuseChain c e
  | .ok r =>
    match s.entry r.key with
    | none => s.refuseKey c r .noEntry []
    | some e =>
      match s.jobAt r with
      | some j => s.refuseKey c r .bandActive [numberWord j.id]
      | none =>
        if e.pinned then s.refuseKey c r .pinned []
        else
          (s.removeEntries [e]).answer c .done [r.keyReport, numberWord e.state.number, numberWord e.candidates.length]

/-- Whether an entry lies in the scope of a RETIRE BAND or RETIRE VOLUME: 0 is CLOSED, 1 is ALL (R183). -/
def Entry.inScope (e : Entry) (scope : BitVec 8) : Bool := scope == 1 || e.state.closed

/-- The entries `p` admits leave but for those pinned or out of scope, and the answer counts the three kinds and the frames
(R183, R184). -/
def State.retireWhere (s : State) (c : Ctx) (name : Word) (p : Entry → Bool) (scope : BitVec 8) : State :=
  let judged := s.entries.filter p
  let gone := judged.filter fun e => e.inScope scope && !e.pinned
  (s.removeEntries gone).answer c .done
    [name, numberWord gone.length, numberWord (judged.countP fun e => e.inScope scope && e.pinned),
     numberWord (judged.countP fun e => !e.inScope scope), numberWord (gone.map fun e => e.candidates.length).sum]

/-- RETIRE BAND (R183). -/
def State.retireBand (s : State) (c : Ctx) (b : BandField) (scope : BitVec 8) : State :=
  match s.chainBand c.level b with
  | .error e => s.refuseChain c e
  | .ok r =>
    match s.jobAt r with
    | some j => s.refuse c .bandActive [r.bandReport, numberWord j.id]
    | none =>
      s.retireWhere c r.bandReport (fun e => e.key.handle == r.handle && e.key.cylinder == r.cylinder && e.key.head == r.head) scope

/-- RETIRE VOLUME (R184). -/
def State.retireVolume (s : State) (c : Ctx) (handle : BitVec 6) (scope : BitVec 8) : State :=
  match s.chainVolume c.level handle with
  | .error e => s.refuseChain c e
  | .ok r =>
    match s.jobs.find? fun j => j.handle == r.handle with
    | some j => s.refuse c .bandActive [r.volumeReport, numberWord j.id]
    | none => s.retireWhere c r.volumeReport (fun e => e.key.handle == r.handle && r.covers e.key.cylinder) scope

/-! ## SYNTHESIZE -/

/-- The SYNTHESIZE requests in hand or waiting (R153). -/
def Synth.commandRequests (u : Synth) : Nat :=
  (u.wait.countP fun r => r.source.isCommand) + (u.inHand.toList.countP fun r => r.source.isCommand)

/-- SYNTHESIZE (R153): a command that passes becomes a request, which answers when it ends; one that ends at its start is
refused at its taking. -/
def State.synthesize (s : State) (c : Ctx) (k : KeyField) : State :=
  match s.chainKey c.level k with
  | .error e => s.refuseChain c e
  | .ok r =>
    match s.entry r.key with
    | none => s.refuse c .noEntry []
    | some e =>
      match s.jobAt r with
      | some j => s.refuse c .bandActive [numberWord j.id]
      | none =>
        if e.pinned then s.refuse c .pinned []
        else if !(e.state == .weak || e.state == .exhausted) then s.refuse c .state [numberWord e.state.number]
        else if e.readCount < Config.synthesisInputs then s.refuse c .tooFew [numberWord e.readCount]
        else if Config.synthesizeRequests ≤ s.synth.commandRequests then s.refuse c .synthBusy []
        else
          match s.synthArrive ⟨r.key, .command c.queue c.tag r.via⟩ with
          | .inl s => s
          | .inr (code, body) => s.answerSynth (synthCtx c.queue c.tag) r.key r.via (.atStart code body)

end Sys2Proof.Machine
end

