-- ==== Sys2Proof/Machine/LinkCommands.lean ====
section
/-! DEFINITION. ABORT TRANSFER, SET TRANSFER LEVEL, STATUS, CLEAR FLAGS and RESTART (08, R167; 10, R188, R197 to R199). -/

namespace Sys2Proof.Machine

/-- ABORT TRANSFER (R167). Its check 2 alone judges the level: with the transfer queue at level 0 (R188) it passes there for a transfer
opened from the console queue (log 42). -/
def State.abortTransfer (s : State) (c : Ctx) : State :=
  match s.transfer with
  | none => s.refuse c .noTransfer []
  | some t =>
    if t.level < c.level then s.refuse c .level []
    else
      (s.endTransferEarly t .aborted).answer c .done
        [numberWord t.direction.number, t.key.word, numberWord t.total, numberWord t.moved]

/-- SET TRANSFER LEVEL (R188). -/
def State.setTransferLevel (s : State) (c : Ctx) (level : BitVec 3) : State :=
  (s.setLink { s.link with transferLevel := level.toNat }).answer c .done [numberWord s.link.transferLevel]

/-! ## STATUS (R198, R204) -/

/-- The number of jobs in a job state. -/
def State.jobsIn (s : State) (st : JobState) : Nat := s.jobs.countP fun j => j.state == st

/-- The seven job-state counts in one word, four bits each from bit 31 (R204). -/
def State.jobCounts (s : State) : Word :=
  bits 4 (s.jobsIn .queued) ++ bits 4 (s.jobsIn .positioning) ++ bits 4 (s.jobsIn .awaitingChannel) ++ bits 4 (s.jobsIn .streaming)
    ++ bits 4 (s.jobsIn .reseating) ++ bits 4 (s.jobsIn .retensionWait) ++ bits 4 (s.jobsIn .closing) ++ 0#4

/-- Synthesis unit states: 0 IDLE, 1 VOTING (11.6). -/
def Synth.stateNumber (u : Synth) : Nat := if u.idle then 0 else 1

def State.summaryBody (s : State) : List Word :=
  [numberWord s.entries.length, numberWord s.pool.length, s.jobCounts, numberWord s.channelA.grants, numberWord s.channelB.grants,
   numberWord s.waits.length, numberWord s.input.length, numberWord s.synth.stateNumber, numberWord s.synth.wait.length,
   numberWord s.link.reserved, numberWord s.link.transferLevel]

/-- STATUS PORT (R198): the selected band is a key word with no handle (R204). -/
def Port.body (p : Port) : List Word :=
  [numberWord p.kind.number, numberWord p.state.number,
   match p.band with
   | some b => keyWord absentHandle b.cylinder b.head 0
   | none => absentWord,
   optionWord p.headCylinder, flagWord p.ready, numberWord p.passCount, numberWord (faultNumber p.fault), flagWord p.parkOnArrival]

def Channel.body (ch : Channel) : List Word := [numberWord ch.state.number, optionWord ch.owner, numberWord ch.grants]

def State.channelsBody (s : State) : List Word :=
  s.channelA.body ++ s.channelB.body ++ [numberWord s.waits.length, fourToWord s.waits]

def Job.body (j : Job) : List Word :=
  [bits 8 j.id ++ bits 3 j.state.number ++ bits 1 j.phase.number ++ bits 2 j.drive.val ++ bits 4 j.passesRun
     ++ bits 2 j.consecutiveFaults ++ bits 5 j.holdRemaining ++ bits 3 j.tolerance ++ 0#4,
   numberWord j.layout.length, keyWord j.handle j.cylinder j.head 0] ++ packFours j.layout

/-- The outcome of a closing record with its indices (R166, R169). -/
def ClosingOutcome.body (o : ClosingOutcome) : List Word :=
  numberWord o.number ::
    match o with
    | .identical k | .joined k => [numberWord k, absentWord]
    | .replaced left k => [numberWord left, numberWord k]
    | .completed | .noEntry | .stale | .aborted | .restart => [absentWord, absentWord]

def closingBody : Option ClosingRecord → List Word
  | none => [absentWord]
  | some r =>
    [numberWord r.direction.number, r.key.word, numberWord r.tag.toNat, numberWord (queueNumber r.queue), numberWord r.total,
     numberWord r.moved] ++ r.outcome.body

def transferBody : Option Transfer → List Word
  | none => [0, absentWord, absentWord, absentWord]
  | some t => [numberWord t.direction.number, t.key.word, numberWord t.total, numberWord t.moved]

/-- The candidate frames: the sum of the candidate counts over the table (R159). -/
def State.candidateFrames (s : State) : Nat := (s.entries.map fun e => e.candidates.length).sum

/-- The inbound frames, 0 or 1 (R155). -/
def State.inboundFrames (s : State) : Nat :=
  match s.transfer with
  | some t => if t.direction == .inbound then 1 else 0
  | none => 0

/-- The work frames, 0 or 1 (R155). -/
def State.workFrames (s : State) : Nat := s.synth.workFrame.toList.length

def State.framesBody (s : State) : List Word :=
  [numberWord s.pool.length, 4, numberWord s.candidateFrames, numberWord s.inboundFrames, numberWord s.workFrames]

/-- STATUS (R198). A part above 5 or a port above 3 has been refused as malformed. -/
def State.status (s : State) (c : Ctx) (part number : BitVec 8) : State :=
  match part.toNat with
  | 0 => s.answer c .done s.summaryBody
  | 1 => s.answer c .done (s.port (portOf number)).body
  | 2 => s.answer c .done s.channelsBody
  | 3 =>
    match s.job number.toNat with
    | some j => s.answer c .done j.body
    | none => s.refuse c .noSuchJob []
  | 4 => s.answer c .done (transferBody s.transfer ++ closingBody s.closing)
  | _ => s.answer c .done s.framesBody

/-! ## CLEAR FLAGS (R197) -/

/-- The six flags' values, in the order in which CLEAR FLAGS names them (R203). -/
def Link.flagWords (l : Link) : List Word :=
  [flagWord l.overflow, flagWord l.portMisuse, flagWord l.mediaChanged.p0, flagWord l.mediaChanged.p1, flagWord l.mediaChanged.p2,
   flagWord l.mediaChanged.p3]

def Link.clearFlags (l : Link) (flags : BitVec 6) : Link :=
  { l with overflow := l.overflow && !flags.getLsbD 0, portMisuse := l.portMisuse && !flags.getLsbD 1,
           mediaChanged := ⟨l.mediaChanged.p0 && !flags.getLsbD 2, l.mediaChanged.p1 && !flags.getLsbD 3,
                            l.mediaChanged.p2 && !flags.getLsbD 4, l.mediaChanged.p3 && !flags.getLsbD 5⟩ }

def State.clearFlags (s : State) (c : Ctx) (flags : BitVec 6) : State :=
  if flags = 0 then s.refuse c .badParameter []
  else (s.setLink (s.link.clearFlags flags)).answer c .done s.link.flagWords

/-! ## RESTART (R199) -/

/-- The ABANDONED refusals of the SYNTHESIZE requests, in the order the requests arrived (R154). -/
def State.abandon (s : State) : List SynthRequest → State
  | [] => s
  | r :: rest =>
    match r.source with
    | .command q tag _ => (s.refuse (synthCtx q tag) .abandoned []).abandon rest
    | .close _ => s.abandon rest

/-- Every job posts its notice in opening order, CANCELLED with reason RESTART unless its ending was decided (R88). -/
def State.endJobs (s : State) : List Job → State
  | [] => s
  | j :: rest => ((s.updateJob j.id fun j => j.decide (.cancelled .restart)).postNotice j.id).endJobs rest

/-- The synthesis unit after RESTART (R154): idle, its work frame in the pool. DESIGN CHOICE (log 37): the tallies of contested and
tied positions stay as they stand. -/
def State.stopSynth (s : State) : State :=
  let s' := s.setSynth { s.synth with inHand := none, wait := [], workFrame := none, inputs := none }
  match s.synth.workFrame with
  | some f => s'.returnFrame f
  | none => s'

/-- An open transfer is ended by RESTART (R170). -/
def State.stopTransfer (s : State) : State :=
  match s.transfer with
  | some t => s.endTransferEarly t .restart
  | none => s

def State.restartChannels (s : State) : State :=
  ((((s.updateChannel .a Channel.restart).updateChannel .b Channel.restart).setWaits []).setInput [])

def State.restartPorts (s : State) : State :=
  s.setPorts ⟨s.ports.p0.restart, s.ports.p1.restart, s.ports.p2.restart, s.ports.p3.restart⟩

/-- The link port block's part of RESTART (R187, R199). -/
def Link.restart (l : Link) : Link :=
  { l with console := { l.console with records := [] }, transfer := { l.transfer with records := [] }, overflow := false, portMisuse := false,
           preference := .console }

/-- RESTART (R199). -/
def State.restart (s : State) (c : Ctx) : State :=
  let s := s.setLink s.link.restart
  let s := s.abandon (s.synth.inHand.toList ++ s.synth.wait)
  let s := s.endJobs s.jobs
  let s := s.restartChannels.stopTransfer.stopSynth.restartPorts
  s.answer c .done []

end Sys2Proof.Machine
end

