-- ==== Sys2Proof/Machine/Intake.lean ====
section
/-! DEFINITION. The command queues and the intake (10, R187 to R190, R192). -/

namespace Sys2Proof.Machine

/-! ## Queues -/

def Link.lane (l : Link) : Queue → Lane
  | .console => l.console
  | .transfer => l.transfer

def Link.setLane (l : Link) (q : Queue) (v : Lane) : Link :=
  match q with
  | .console => { l with console := v }
  | .transfer => { l with transfer := v }

def otherQueue : Queue → Queue
  | .console => .transfer
  | .transfer => .console

/-- A complete record joins its queue's list, or is discarded with the overflow flag set if the list holds 8 (R187). -/
def Link.joinRecord (l : Link) (q : Queue) (r : Record) : Link :=
  let lane := l.lane q
  if lane.records.length < Config.queueRecords then l.setLane q { lane with records := lane.records ++ [r] }
  else { l with overflow := true }

/-- The requester level of a queue (R188). -/
def Link.level (l : Link) : Queue → Nat
  | .console => 0
  | .transfer => l.transferLevel

/-! ## Taking -/

/-- The command goes to the block that owns it (R190, step 5). -/
def State.perform (s : State) (c : Ctx) : HostCommand → State
  | .unknown _ => s.refuse c .unknownCommand []
  | .driveConfig port f => s.driveConfig c (portOf port) f
  | .park port => s.park c (portOf port)
  | .retension port => s.retension c (portOf port)
  | .driveReset port => s.driveReset c (portOf port)
  | .mount h g m => s.mount c h g m
  | .defineView h f => s.defineView c h f
  | .confirm h => s.confirm c h
  | .unmount h => s.unmount c h
  | .describe h => s.describe c h
  | .setProfile slot m a => s.setProfile c slot m a
  | .clearProfile slot => s.clearProfile c slot
  | .setDefaults a => s.setDefaults c a
  | .readProfile slot => s.readProfile c slot
  | .probeProfile b => s.probeProfile c b
  | .readBand b => s.readBand c b
  | .cancel job => s.cancel c job
  | .hold job n => s.hold c job n
  | .lookup k w => s.lookup c k w
  | .find k w states => s.find c k w states
  | .fetch k n => s.fetch c k n
  | .choose k n => s.choose c k n
  | .amend k check => s.amend c k check
  | .retire k => s.retire c k
  | .retireBand b scope => s.retireBand c b scope
  | .retireVolume h scope => s.retireVolume c h scope
  | .synthesize k => s.synthesize c k
  | .abortTransfer => s.abortTransfer c
  | .setTransferLevel level => s.setTransferLevel c level
  | .status part n => s.status c part n
  | .clearFlags flags => s.clearFlags c flags
  | .restart => s.restart c

/-- Whether a command names no command code the part knows (R190, step 2). -/
def isUnknown : HostCommand → Bool
  | .unknown _ => true
  | _ => false

/-- The judgement of a taken command, step by step (R190): its code, its fields, its queue, and then its owner. DESIGN CHOICE (log 45): a
MALFORMED refusal carries the command code and names no handle, that of a MOUNT among them. -/
def State.judge (s : State) (c : Ctx) (command : HostCommand) : State :=
  if isUnknown command then s.refuse c .unknownCommand []
  else if malformed command then s.refuse c .malformed []
  else if consoleOnly command && c.queue == .transfer then s.refuse c .level []
  else s.perform c command

/-- What the intake carries for a record of queue `q` (R188, R193). -/
def State.ctxOf (s : State) (q : Queue) (r : Record) : Ctx := ⟨q, r.tag, r.code, s.link.level q⟩

/-- The intake takes record `r` from queue `q`, whose list then holds `rest`: the preference names the other queue, one
place is reserved, and the command is judged (R189, R190). -/
def State.take (s : State) (q : Queue) (r : Record) (rest : List Record) : State :=
  let c := s.ctxOf q r
  let l := s.link.setLane q { s.link.lane q with records := rest }
  ((s.setLink { l with preference := otherQueue q }).reserve).judge c r.command

/-- The record the intake takes next: the head of the preferred queue, or of the other (R189). -/
def Link.nextRecord (l : Link) : Option (Queue × Record × List Record) :=
  match (l.lane l.preference).records with
  | r :: rest => some (l.preference, r, rest)
  | [] =>
    match (l.lane (otherQueue l.preference)).records with
    | r :: rest => some (otherQueue l.preference, r, rest)
    | [] => none

/-- The intake takes records while its condition holds (R189). A taking only removes records from the lists, so `n` need
not exceed the number of records that wait. -/
def State.intakeLoop : Nat → State → State
  | 0, s => s
  | n + 1, s =>
    if Config.intakePlaces ≤ s.link.freePlaces then
      match s.link.nextRecord with
      | some (q, r, rest) => State.intakeLoop n (s.take q r rest)
      | none => s
    else s

/-- The intake judges its condition (R189). -/
def State.intake (s : State) : State := s.intakeLoop (s.link.console.records.length + s.link.transfer.records.length)

/-- A record joins its queue and the intake judges its condition (R187, R189). -/
def State.complete (s : State) (q : Queue) (r : Record) : State := (s.setLink (s.link.joinRecord q r)).intake

/-- A host command's record reaches its queue whole (log 1). -/
def State.submit (s : State) (q : Queue) (tag : BitVec 8) (command : HostCommand) : State := s.complete q (command.record tag)

/-! ## The link port's accesses -/

/-- A word written to a command queue's input joins its assembly, and the fourth completes a record (R187). -/
def State.writeQueue (s : State) (q : Queue) (w : Word) : State :=
  let lane := s.link.lane q
  match lane.assembly with
  | [a, b, c] => (s.setLink (s.link.setLane q { lane with assembly := [] })).complete q ⟨a, b, c, w⟩
  | words => s.setLink (s.link.setLane q { lane with assembly := words ++ [w] })

/-- A read of the response queue output returns the next word of the head response; its last word removes it, and the
intake judges its condition again. With no response it returns 0 (R192). -/
def State.readResponse (s : State) : State :=
  match s.link.responses with
  | [] => s.putBus 0
  | r :: rest =>
    let i := s.link.wordsRead
    let s := s.putBus (r.getD i 0)
    if r.length ≤ i + 1 then (s.setLink { s.link with responses := rest, wordsRead := 0 }).intake
    else s.setLink { s.link with wordsRead := i + 1 }

end Sys2Proof.Machine
end

