-- ==== Sys2Proof/Machine/HostCommands.lean ====
section
/-! DEFINITION. The rows of the host commands: the command's record joins its queue whole and the intake takes what it can
(R187, R189, R190; log 1). What each command does when it is taken stands in the file of its block. -/

namespace Sys2Proof.Machine

abbrev Result := Host.Outcome State Fault Refusal

/-- UNKNOWN_COMMAND (R190). -/
def execUnknownCommand (q : Queue) (tag code : BitVec 8) (s : State) : Result := .next (s.submit q tag (.unknown code))
/-- DRIVE CONFIG (R3): `State.driveConfig`. -/
def execDriveConfig (q : Queue) (tag port : BitVec 8) (f : ConfigField) (s : State) : Result := .next (s.submit q tag (.driveConfig port f))
/-- PARK (R24): `State.park`. -/
def execPark (q : Queue) (tag port : BitVec 8) (s : State) : Result := .next (s.submit q tag (.park port))
/-- RETENSION (R23): `State.retension`. -/
def execRetension (q : Queue) (tag port : BitVec 8) (s : State) : Result := .next (s.submit q tag (.retension port))
/-- DRIVE RESET (R26): `State.driveReset`. -/
def execDriveReset (q : Queue) (tag port : BitVec 8) (s : State) : Result := .next (s.submit q tag (.driveReset port))
/-- MOUNT (R37, R38): `State.mount`. -/
def execMount (q : Queue) (tag : BitVec 8) (h : BitVec 6) (g : GeometryWord) (m : MediumField) (s : State) : Result :=
  .next (s.submit q tag (.mount h g m))
/-- ALIAS (R39): `State.defineView`. -/
def execDefineView (q : Queue) (tag : BitVec 8) (h : BitVec 6) (f : ViewField) (s : State) : Result := .next (s.submit q tag (.defineView h f))
/-- CONFIRM (R40): `State.confirm`. -/
def execConfirm (q : Queue) (tag : BitVec 8) (h : BitVec 6) (s : State) : Result := .next (s.submit q tag (.confirm h))
/-- UNMOUNT (R41, R42): `State.unmount`. -/
def execUnmount (q : Queue) (tag : BitVec 8) (h : BitVec 6) (s : State) : Result := .next (s.submit q tag (.unmount h))
/-- DESCRIBE (R43): `State.describe`. -/
def execDescribe (q : Queue) (tag : BitVec 8) (h : BitVec 6) (s : State) : Result := .next (s.submit q tag (.describe h))
/-- SET PROFILE (R53): `State.setProfile`. -/
def execSetProfile (q : Queue) (tag slot : BitVec 8) (m : MatchField) (a : AttributeField) (s : State) : Result :=
  .next (s.submit q tag (.setProfile slot m a))
/-- CLEAR PROFILE (R54): `State.clearProfile`. -/
def execClearProfile (q : Queue) (tag slot : BitVec 8) (s : State) : Result := .next (s.submit q tag (.clearProfile slot))
/-- SET DEFAULTS (R55): `State.setDefaults`. -/
def execSetDefaults (q : Queue) (tag : BitVec 8) (a : AttributeField) (s : State) : Result := .next (s.submit q tag (.setDefaults a))
/-- READ PROFILE (R56): `State.readProfile`. -/
def execReadProfile (q : Queue) (tag slot : BitVec 8) (s : State) : Result := .next (s.submit q tag (.readProfile slot))
/-- PROBE PROFILE (R57): `State.probeProfile`. -/
def execProbeProfile (q : Queue) (tag : BitVec 8) (b : BandField) (s : State) : Result := .next (s.submit q tag (.probeProfile b))
/-- READ BAND (R58 to R60): `State.readBand`. -/
def execReadBand (q : Queue) (tag : BitVec 8) (b : BandField) (s : State) : Result := .next (s.submit q tag (.readBand b))
/-- CANCEL (R82 to R85): `State.cancel`. -/
def execCancel (q : Queue) (tag job : BitVec 8) (s : State) : Result := .next (s.submit q tag (.cancel job))
/-- HOLD (R97): `State.hold`. -/
def execHold (q : Queue) (tag job : BitVec 8) (n : BitVec 5) (s : State) : Result := .next (s.submit q tag (.hold job n))
/-- LOOKUP (R172): `State.lookup`. -/
def execLookup (q : Queue) (tag : BitVec 8) (k : KeyField) (w : BitVec 8) (s : State) : Result := .next (s.submit q tag (.lookup k w))
/-- FIND (R173, R174): `State.find`. -/
def execFind (q : Queue) (tag : BitVec 8) (k : KeyField) (w : BitVec 8) (states : Word) (s : State) : Result :=
  .next (s.submit q tag (.find k w states))
/-- FETCH (R175, R176): `State.fetch`. -/
def execFetch (q : Queue) (tag : BitVec 8) (k : KeyField) (n : BitVec 8) (s : State) : Result := .next (s.submit q tag (.fetch k n))
/-- CHOOSE (R177, R178): `State.choose`. -/
def execChoose (q : Queue) (tag : BitVec 8) (k : KeyField) (n : BitVec 8) (s : State) : Result := .next (s.submit q tag (.choose k n))
/-- AMEND (R179): `State.amend`. -/
def execAmend (q : Queue) (tag : BitVec 8) (k : KeyField) (check : Word) (s : State) : Result := .next (s.submit q tag (.amend k check))
/-- RETIRE (R182): `State.retire`. -/
def execRetire (q : Queue) (tag : BitVec 8) (k : KeyField) (s : State) : Result := .next (s.submit q tag (.retire k))
/-- RETIRE BAND (R183): `State.retireBand`. -/
def execRetireBand (q : Queue) (tag : BitVec 8) (b : BandField) (scope : BitVec 8) (s : State) : Result :=
  .next (s.submit q tag (.retireBand b scope))
/-- RETIRE VOLUME (R184): `State.retireVolume`. -/
def execRetireVolume (q : Queue) (tag : BitVec 8) (h : BitVec 6) (scope : BitVec 8) (s : State) : Result :=
  .next (s.submit q tag (.retireVolume h scope))
/-- SYNTHESIZE (R153): `State.synthesize`. -/
def execSynthesize (q : Queue) (tag : BitVec 8) (k : KeyField) (s : State) : Result := .next (s.submit q tag (.synthesize k))
/-- ABORT TRANSFER (R167): `State.abortTransfer`. -/
def execAbortTransfer (q : Queue) (tag : BitVec 8) (s : State) : Result := .next (s.submit q tag .abortTransfer)
/-- SET TRANSFER LEVEL (R188): `State.setTransferLevel`. -/
def execSetTransferLevel (q : Queue) (tag : BitVec 8) (level : BitVec 3) (s : State) : Result := .next (s.submit q tag (.setTransferLevel level))
/-- STATUS (R198): `State.status`. -/
def execStatus (q : Queue) (tag part number : BitVec 8) (s : State) : Result := .next (s.submit q tag (.status part number))
/-- CLEAR FLAGS (R197): `State.clearFlags`. -/
def execClearFlags (q : Queue) (tag : BitVec 8) (flags : BitVec 6) (s : State) : Result := .next (s.submit q tag (.clearFlags flags))
/-- RESTART (R199): `State.restart`. -/
def execRestart (q : Queue) (tag : BitVec 8) (s : State) : Result := .next (s.submit q tag .restart)

end Sys2Proof.Machine
end

