-- ==== Sys2Proof/Machine/LinkAccesses.lean ====
section
/-! DEFINITION. Power-on, the RESET line and the host's accesses at the link port (10, R186, R187, R192, R196, R200; 08, R162). -/

namespace Sys2Proof.Machine

/-- Power-on (R200), with no byte of buffer memory written (log 8). The commands and events that still wait are the model's transport
and stay (log 29). -/
def execPowerOn (s : State) : Result := .next (State.reset.setPending s.pending)

/-- What the RESET line makes of a channel: every field after power-on, and each landing place FREE with its frame (R92, R93, R138). -/
def Channel.afterResetLine (c : Channel) : Channel := Channel.reset c.placeOne.frame c.placeTwo.frame

/-- The part after the RESET line: the values of power-on (R200), but that each landing place keeps its frame, and every frame of a
candidate, an inbound transfer or a vote goes to the pool (R138, R155), with the bytes it holds. -/
def State.afterResetLine (s : State) : State :=
  ((((State.reset.setChannelA s.channelA.afterResetLine).setChannelB s.channelB.afterResetLine).setPool (s.framesOut ++ s.pool)).setMemory
    s.memory).setPending s.pending

/-- An assertion of the RESET line (R200): `State.afterResetLine`. -/
def execResetLine (s : State) : Result := .next s.afterResetLine

/-- A word at a command queue input (R187). -/
def execCommandQueueWrite (q : Queue) (w : Word) (s : State) : Result := .next (s.writeQueue q w)

/-- A read of the response queue output (R192). -/
def execResponseQueueRead (s : State) : Result := .next s.readResponse

/-- A read of the data port (R162, R164). -/
def execDataPortRead (s : State) : Result := .next s.portRead

/-- A write of the data port (R162, R166). -/
def execDataPortWrite (w : Word) (s : State) : Result := .next (s.portWrite w)

/-- A write of the notify-enable word replaces all five enables (R196, R207). -/
def execNotifyEnableWrite (w : Word) (s : State) : Result := .next (s.setLink { s.link with enables := w.extractLsb' 0 5 })

/-- A discarded write changes nothing and sets no flag (R186). -/
def execRegisterWrite (_ : ReadOnlyLocation) (_ : Word) (s : State) : Result := .next s

end Sys2Proof.Machine
end

