-- ==== Sys2Proof/Machine/DriveReports.lean ====
section
/-! DEFINITION. The drives' reports at their ports (01, R5 to R10, R18, R21; 02, R44; 04, R76, R86). A report at a port in a
state, or of a kind, where R5 does not list it is discarded. -/

namespace Sys2Proof.Machine

/-- Whether a port of this kind is in this state (R5). -/
def State.portIs (s : State) (p : Fin 4) (kind : PortKind) (state : PortState) : Bool :=
  (s.port p).kind == kind && (s.port p).state == state

/-- A ready report (R6), which may complete a positioning (R9, R10). -/
def State.readyReport (s : State) (p : Fin 4) : State :=
  if (s.port p).state == .offline then s else (s.updatePort p Port.readyReport).checkArrival p

/-- A not-ready report (R6). -/
def State.notReadyReport (s : State) (p : Fin 4) : State :=
  if (s.port p).state == .offline then s else s.updatePort p fun q => { q with ready := false }

/-- Clears present on the drive's present MEDIUM entry, if there is one (R44). -/
def State.clearPresent (s : State) (p : Fin 4) : State :=
  match s.presentHandle p with
  | some h => s.setPresent h false
  | none => s

/-- Why a media change fails the port's active job (R76, R86): `state` is the port's state at the report. -/
def mediaChangeReason (state : PortState) : FailReason :=
  match state with
  | .retensioning => .retensionFault
  | .offline | .idle | .positioning | .onBand | .streaming | .parking | .faulted => .mediaGone

/-- A media-change report (R7, R44, R86). -/
def State.mediaChange (s : State) (p : Fin 4) : State :=
  let state := (s.port p).state
  if state == .offline then s
  else
    let s := ((s.setMediaChanged p).clearPresent p).updatePort p Port.mediaChange
    match s.activeJob p with
    | some j => (s.stopJob j (.failed (mediaChangeReason state))).afterStop (j.decide (.failed (mediaChangeReason state)))
    | none => s.offer p

/-- What a granted channel makes of a report of port `p` (R112). -/
def State.atChannel (s : State) (p : Fin 4) (f : State → ChannelName → State) : State :=
  match s.streamChannel p with
  | some c => f s c
  | none => s

/-- An index report (R15, R100). -/
def State.indexReport (s : State) (p : Fin 4) : State :=
  if s.portIs p .floppy .streaming then (s.updatePort p Port.restartWatchdog).atChannel p State.indexAt else s

/-- A block mark report (R15, R106). -/
def State.blockMark (s : State) (p : Fin 4) : State :=
  if s.portIs p .cartridge .streaming then (s.updatePort p Port.restartWatchdog).atChannel p State.blockMarkAt else s

/-- A band start mark (R101). -/
def State.bandStart (s : State) (p : Fin 4) : State :=
  if s.portIs p .cartridge .streaming then (s.updatePort p Port.restartWatchdog).atChannel p State.bandStartAt else s

/-- A band end mark (R101). -/
def State.bandEnd (s : State) (p : Fin 4) : State :=
  if s.portIs p .cartridge .streaming then (s.updatePort p Port.restartWatchdog).atChannel p State.bandEndAt else s

/-- A track-0 report ends a recalibration (R8) or a park (R18), whose port is then offered (R64). -/
def State.track0 (s : State) (p : Fin 4) : State :=
  if s.portIs p .floppy .positioning && (s.port p).motion == .recalibrating then (s.updatePort p Port.endRecalibration).checkArrival p
  else if s.portIs p .floppy .parking then (s.updatePort p Port.endPark).offer p
  else s

/-- A positioned report (R10). -/
def State.positionedReport (s : State) (p : Fin 4) : State :=
  if s.portIs p .cartridge .positioning then (s.updatePort p fun q => { q with positioned := true }).checkArrival p else s

/-- A start report ends a rewind (R18). -/
def State.startReport (s : State) (p : Fin 4) : State :=
  if s.portIs p .cartridge .parking then (s.updatePort p Port.endPark).offer p else s

/-- The job of a port that waits for its retension (R75). -/
def State.retensionWaiter (s : State) (p : Fin 4) : Option Job := (s.activeJob p).filter fun j => j.state == .retensionWait

/-- A retension-complete report (R21, R76): a waiting job positions afresh. -/
def State.retensionComplete (s : State) (p : Fin 4) : State :=
  if s.portIs p .cartridge .retensioning then
    let s := s.updatePort p Port.endRetension
    match s.retensionWaiter p with
    | some j => s.positionJob j
    | none => s.offer p
  else s

/-- READY_REPORT (R6). -/
def execReadyReport (p : Fin 4) (s : State) : Result := .next (s.readyReport p)
/-- NOT_READY_REPORT (R6). -/
def execNotReadyReport (p : Fin 4) (s : State) : Result := .next (s.notReadyReport p)
/-- MEDIA_CHANGE_REPORT (R7). -/
def execMediaChangeReport (p : Fin 4) (s : State) : Result := .next (s.mediaChange p)
/-- INDEX_REPORT (R15). -/
def execIndexReport (p : Fin 4) (s : State) : Result := .next (s.indexReport p)
/-- BLOCK_MARK_REPORT (R15). -/
def execBlockMarkReport (p : Fin 4) (s : State) : Result := .next (s.blockMark p)
/-- BAND_START_MARK (R101). -/
def execBandStartMark (p : Fin 4) (s : State) : Result := .next (s.bandStart p)
/-- BAND_END_MARK (R101). -/
def execBandEndMark (p : Fin 4) (s : State) : Result := .next (s.bandEnd p)
/-- TRACK_0_REPORT (R8, R18). -/
def execTrack0Report (p : Fin 4) (s : State) : Result := .next (s.track0 p)
/-- POSITIONED_REPORT (R10). -/
def execPositionedReport (p : Fin 4) (s : State) : Result := .next (s.positionedReport p)
/-- START_REPORT (R18). -/
def execStartReport (p : Fin 4) (s : State) : Result := .next (s.startReport p)
/-- RETENSION_COMPLETE_REPORT (R21). -/
def execRetensionCompleteReport (p : Fin 4) (s : State) : Result := .next (s.retensionComplete p)

end Sys2Proof.Machine
end

