-- ==== Sys2Proof/Machine/Timers.lean ====
section
/-! DEFINITION. The expiries of the ports' timers (01, R8, R9, R11, R15, R17, R19, R22). An expiry of a timer that does not
run does not occur, and changes nothing. -/

namespace Sys2Proof.Machine

/-- The step interval has run out: the next step of a recalibration, seek, reseat or park (R8, R12, R18). -/
def State.stepExpiry (s : State) (p : Fin 4) : State := if (s.port p).stepTimer.isSome then s.updatePort p Port.stepDue else s

/-- The settle timer expires (R9). -/
def State.settleExpiry (s : State) (p : Fin 4) : State :=
  if (s.port p).settleTimer.isSome then (s.updatePort p fun q => { q with settleTimer := none }).checkArrival p else s

/-- A port fault fails the job that waits for the port in one of these states, with the notice at once (R66, R76). -/
def State.failWaiting (s : State) (p : Fin 4) (states : List JobState) (reason : FailReason) : State :=
  match s.activeJob p with
  | some j =>
    if states.contains j.state then (s.stopJob j (.failed reason)).afterStop (j.decide (.failed reason)) else s
  | none => s

/-- Positioning has not ended within 10 s (R11, R66). The fault asks a cartridge drive no stop of its tape: R11 and R25 name no such
request (log 39). -/
def State.positionOvertime (s : State) (p : Fin 4) : State :=
  if (s.port p).state == .positioning && (s.port p).overtimeTimer.isSome then
    (s.updatePort p fun q => (q.enterFaulted .positionOvertime).loseHead).failWaiting p [.positioning, .reseating] .positionFault
  else s

/-- The stream watchdog expires (R15, R17, R77). -/
def State.watchdogExpiry (s : State) (p : Fin 4) : State :=
  if (s.port p).state == .streaming && (s.port p).streamWatchdog.isSome then
    match s.activeJob p with
    | some j => s.endPassFaulted j
    | none => s.updatePort p Port.endStream
  else s

/-- A park has not ended within 10 s (R19). -/
def State.parkOvertime (s : State) (p : Fin 4) : State :=
  if (s.port p).state == .parking && (s.port p).overtimeTimer.isSome then
    s.updatePort p fun q => (q.enterFaulted .parkOvertime).loseHead.stopTape
  else s

/-- The retension watchdog expires (R22, R76). -/
def State.retensionExpiry (s : State) (p : Fin 4) : State :=
  if (s.port p).state == .retensioning && (s.port p).retensionWatchdog.isSome then
    (s.updatePort p fun q => (q.enterFaulted .retensionOvertime).stopTape).failWaiting p [.retensionWait] .retensionFault
  else s

/-- STEP_INTERVAL_EXPIRY (R8). -/
def execStepIntervalExpiry (p : Fin 4) (s : State) : Result := .next (s.stepExpiry p)
/-- SETTLE_EXPIRY (R9). -/
def execSettleExpiry (p : Fin 4) (s : State) : Result := .next (s.settleExpiry p)
/-- POSITION_OVERTIME (R11). -/
def execPositionOvertime (p : Fin 4) (s : State) : Result := .next (s.positionOvertime p)
/-- STREAM_WATCHDOG_EXPIRY (R15). -/
def execStreamWatchdogExpiry (p : Fin 4) (s : State) : Result := .next (s.watchdogExpiry p)
/-- PARK_OVERTIME (R19). -/
def execParkOvertime (p : Fin 4) (s : State) : Result := .next (s.parkOvertime p)
/-- RETENSION_WATCHDOG_EXPIRY (R22). -/
def execRetensionWatchdogExpiry (p : Fin 4) (s : State) : Result := .next (s.retensionExpiry p)

end Sys2Proof.Machine
end

