-- ==== Sys2Proof/Machine/StreamEvents.lean ====
section
/-! DEFINITION. What the streams carry, seen by the granted channel alone (05, R104 to R106, R112), and the events of the
reconciler and of the synthesis unit (06, R123; 07, R148). -/

namespace Sys2Proof.Machine

/-- The reconciler takes the reading at the head of its input queue (R123), and a pass it drains is judged (R70). An empty
queue holds nothing to take. -/
def State.takeReading (s : State) : State :=
  match s.input with
  | [] => s
  | r :: rest =>
    let s := (s.setInput rest).reconcile r
    match s.bandJob r.key.handle r.key.cylinder r.key.head with
    | some j => s.checkDrained j.id
    | none => s

/-- The vote ends: the result is placed or discarded and reported to its source, and the oldest waiting request is judged
(R143, R148 to R153). An idle unit has no vote to end. -/
def State.voteEnd (s : State) : State :=
  match s.synth.inHand, s.synth.inputs, s.synth.workFrame with
  | some r, some inputs, some f =>
    let e := s.endVote r inputs f
    (e.1.reportSynth r e.2).serveNext
  | _, _, _ => s

/-- GOOD_HEADER (R104). -/
def execGoodHeader (p : Fin 4) (cylinder head sector size : Nat) (s : State) : Result :=
  .next (s.atChannel p fun s c => s.goodHeaderAt c ⟨cylinder, head, sector, size⟩)
/-- BAD_HEADER (R105). -/
def execBadHeader (p : Fin 4) (s : State) : Result := .next (s.atChannel p State.badHeaderAt)
/-- DATA_MARK (R101). -/
def execDataMark (p : Fin 4) (s : State) : Result := .next (s.atChannel p State.dataMarkAt)
/-- DATA_FIELD_END (R106). -/
def execDataFieldEnd (p : Fin 4) (data : List Byte) (check : Word) (doubtful : List Nat) (s : State) : Result :=
  .next (s.atChannel p fun s c => s.dataEndAt c data check doubtful)
/-- TAKE_READING (R123). -/
def execTakeReading (s : State) : Result := .next s.takeReading
/-- VOTE_END (R148). -/
def execVoteEnd (s : State) : Result := .next s.voteEnd

end Sys2Proof.Machine
end

