-- ==== Sys2Proof/Machine/Dispatch.lean ====
section
/-! DEFINITION. One arm for each command and event: a direct call of its meaning. -/

namespace Sys2Proof.Machine

def exec (i : Instr) (s : State) : Host.Outcome State Fault Refusal :=
  match i with
  | .powerOn => Sys2Proof.Machine.execPowerOn s
  | .resetLine => Sys2Proof.Machine.execResetLine s
  | .commandQueueWrite q w => Sys2Proof.Machine.execCommandQueueWrite q w s
  | .responseQueueRead => Sys2Proof.Machine.execResponseQueueRead s
  | .dataPortRead => Sys2Proof.Machine.execDataPortRead s
  | .dataPortWrite w => Sys2Proof.Machine.execDataPortWrite w s
  | .notifyEnableWrite w => Sys2Proof.Machine.execNotifyEnableWrite w s
  | .registerWrite l w => Sys2Proof.Machine.execRegisterWrite l w s
  | .unknownCommand q tag code => Sys2Proof.Machine.execUnknownCommand q tag code s
  | .driveConfig q tag port f => Sys2Proof.Machine.execDriveConfig q tag port f s
  | .park q tag port => Sys2Proof.Machine.execPark q tag port s
  | .retension q tag port => Sys2Proof.Machine.execRetension q tag port s
  | .driveReset q tag port => Sys2Proof.Machine.execDriveReset q tag port s
  | .mount q tag handle g m => Sys2Proof.Machine.execMount q tag handle g m s
  | .defineView q tag handle f => Sys2Proof.Machine.execDefineView q tag handle f s
  | .confirm q tag handle => Sys2Proof.Machine.execConfirm q tag handle s
  | .unmount q tag handle => Sys2Proof.Machine.execUnmount q tag handle s
  | .describe q tag handle => Sys2Proof.Machine.execDescribe q tag handle s
  | .setProfile q tag slot m a => Sys2Proof.Machine.execSetProfile q tag slot m a s
  | .clearProfile q tag slot => Sys2Proof.Machine.execClearProfile q tag slot s
  | .setDefaults q tag a => Sys2Proof.Machine.execSetDefaults q tag a s
  | .readProfile q tag slot => Sys2Proof.Machine.execReadProfile q tag slot s
  | .probeProfile q tag band => Sys2Proof.Machine.execProbeProfile q tag band s
  | .readBand q tag band => Sys2Proof.Machine.execReadBand q tag band s
  | .cancel q tag job => Sys2Proof.Machine.execCancel q tag job s
  | .hold q tag job passes => Sys2Proof.Machine.execHold q tag job passes s
  | .lookup q tag key window => Sys2Proof.Machine.execLookup q tag key window s
  | .find q tag key window states => Sys2Proof.Machine.execFind q tag key window states s
  | .fetch q tag key candidate => Sys2Proof.Machine.execFetch q tag key candidate s
  | .choose q tag key candidate => Sys2Proof.Machine.execChoose q tag key candidate s
  | .amend q tag key check => Sys2Proof.Machine.execAmend q tag key check s
  | .retire q tag key => Sys2Proof.Machine.execRetire q tag key s
  | .retireBand q tag band scope => Sys2Proof.Machine.execRetireBand q tag band scope s
  | .retireVolume q tag handle scope => Sys2Proof.Machine.execRetireVolume q tag handle scope s
  | .synthesize q tag key => Sys2Proof.Machine.execSynthesize q tag key s
  | .abortTransfer q tag => Sys2Proof.Machine.execAbortTransfer q tag s
  | .setTransferLevel q tag level => Sys2Proof.Machine.execSetTransferLevel q tag level s
  | .status q tag part number => Sys2Proof.Machine.execStatus q tag part number s
  | .clearFlags q tag flags => Sys2Proof.Machine.execClearFlags q tag flags s
  | .restart q tag => Sys2Proof.Machine.execRestart q tag s
  | .readyReport p => Sys2Proof.Machine.execReadyReport p s
  | .notReadyReport p => Sys2Proof.Machine.execNotReadyReport p s
  | .mediaChangeReport p => Sys2Proof.Machine.execMediaChangeReport p s
  | .indexReport p => Sys2Proof.Machine.execIndexReport p s
  | .blockMarkReport p => Sys2Proof.Machine.execBlockMarkReport p s
  | .bandStartMark p => Sys2Proof.Machine.execBandStartMark p s
  | .bandEndMark p => Sys2Proof.Machine.execBandEndMark p s
  | .track0Report p => Sys2Proof.Machine.execTrack0Report p s
  | .positionedReport p => Sys2Proof.Machine.execPositionedReport p s
  | .startReport p => Sys2Proof.Machine.execStartReport p s
  | .retensionCompleteReport p => Sys2Proof.Machine.execRetensionCompleteReport p s
  | .stepIntervalExpiry p => Sys2Proof.Machine.execStepIntervalExpiry p s
  | .settleExpiry p => Sys2Proof.Machine.execSettleExpiry p s
  | .positionOvertime p => Sys2Proof.Machine.execPositionOvertime p s
  | .streamWatchdogExpiry p => Sys2Proof.Machine.execStreamWatchdogExpiry p s
  | .parkOvertime p => Sys2Proof.Machine.execParkOvertime p s
  | .retensionWatchdogExpiry p => Sys2Proof.Machine.execRetensionWatchdogExpiry p s
  | .goodHeader p cylinder head sector size => Sys2Proof.Machine.execGoodHeader p cylinder head sector size s
  | .badHeader p => Sys2Proof.Machine.execBadHeader p s
  | .dataFieldEnd p data check doubtful => Sys2Proof.Machine.execDataFieldEnd p data check doubtful s
  | .takeReading => Sys2Proof.Machine.execTakeReading s
  | .voteEnd => Sys2Proof.Machine.execVoteEnd s
  | .dataMark p => Sys2Proof.Machine.execDataMark p s

end Sys2Proof.Machine
end

