-- ==== Sys2Proof/Safety.lean ====
section
/-! DEFINITION. What counts as a sound state, in the terms claims use: the laws the manual gives the blocks at every moment
(R2, R20, R28 to R30, R36, R39, R41, R46, R47, R58, R61, R113, R115, R155, R187, R191). -/

namespace Sys2Proof.Machine

/-! ## Ports, volumes and profiles -/

/-- The configuration of a port lies in the ranges of R2, and its pass count does not exceed its retension interval (R20). -/
abbrev Port.Sound (p : Port) : Prop :=
  (1 ≤ p.settleTime ∧ p.settleTime ≤ 60) ∧ (100 ≤ p.indexTimeout ∧ p.indexTimeout ≤ 2000)
    ∧ (500 ≤ p.markTimeout ∧ p.markTimeout ≤ 8000) ∧ (4 ≤ p.retensionInterval ∧ p.retensionInterval ≤ 64)
    ∧ p.passCount ≤ p.retensionInterval

abbrev State.PortsSound (s : State) : Prop := s.ports.p0.Sound ∧ s.ports.p1.Sound ∧ s.ports.p2.Sound ∧ s.ports.p3.Sound

/-- A geometry within the limits of its kind (R36). -/
abbrev Geometry.Sound (g : Geometry) (kind : PortKind) : Prop :=
  (1 ≤ g.cylinders ∧ g.cylinders ≤ if kind = .floppy then 100 else 1024)
    ∧ (1 ≤ g.heads ∧ g.heads ≤ if kind = .floppy then 2 else 48)
    ∧ (1 ≤ g.sectors ∧ g.sectors ≤ 32) ∧ g.firstId + g.sectors ≤ 256
    ∧ (if kind = .floppy then g.sizeCode ≤ 3 else g.sizeCode = 2)
    ∧ (g.encoding = .fixed ↔ kind ≠ .floppy) ∧ (g.rate = .fixed ↔ kind ≠ .floppy)

/-- A volume table entry as MOUNT and ALIAS make it: the target of an ALIAS is a MEDIUM entry whose cylinders hold it
(R28, R36, R39). -/
abbrev State.EntrySound (s : State) (v : VolumeEntry) : Prop :=
  match v with
  | .unused => True
  | .medium m => m.kind ≠ .noDrive ∧ m.geometry.Sound m.kind ∧ m.cls ≤ 7 ∧ m.level ≤ 3
  | .view a => a.level ≤ 3 ∧ 1 ≤ a.limit ∧ a.target ∈ handles ∧ ∃ m, s.medium a.target = some m ∧ a.offset + a.limit ≤ m.geometry.cylinders

/-- The volume table: the null handle is never defined (R28), every entry is sound, and no port has more than one MEDIUM
entry with present set (R30). -/
structure State.VolumesSound (s : State) : Prop where
  null : s.volume 0 = .unused
  entries : ∀ h ∈ handles, s.EntrySound (s.volume h)
  present : ∀ p, ∀ h ∈ handles, ∀ h' ∈ handles, s.presentOn p h = true → s.presentOn p h' = true → h = h'

/-- Attributes within their ranges (R46). -/
abbrev Attributes.Sound (a : Attributes) : Prop :=
  (1 ≤ a.passLimit ∧ a.passLimit ≤ 15) ∧ (1 ≤ a.quorum ∧ a.quorum ≤ 4) ∧ a.tolerance ≤ 7

/-- A slot within the ranges of R46 and R47. -/
abbrev Profile.Sound (p : Profile) : Prop :=
  p.attributes.Sound ∧ p.matching.cls ≤ 7 ∧ p.matching.classMask ≤ 7 ∧ p.matching.cylinder ≤ 1023 ∧ p.matching.cylinderMask ≤ 1023
    ∧ p.matching.head ≤ 47

structure State.ProfilesSound (s : State) : Prop where
  default : s.profiles.default.Sound
  slots : ∀ i : Fin 10, ∀ p, s.profiles.slots[i] = some p → p.Sound

/-! ## Jobs, the table and memory -/

/-- Two jobs have different ids and different resolved bands (R58, R61). -/
abbrev Job.Apart (a b : Job) : Prop := a.id ≠ b.id ∧ ¬(a.handle = b.handle ∧ a.cylinder = b.cylinder ∧ a.head = b.head)

/-- The job table: at most 8 jobs, apart, ids of 0 to 255, an id counter that names no job (R58, R61), and layout lists of
at most 40 ids (R62). -/
structure State.JobsSound (s : State) : Prop where
  count : s.jobs.length ≤ 8
  apart : s.jobs.Pairwise Job.Apart
  ids : ∀ j ∈ s.jobs, j.id < 256
  next : s.nextJobId < 256
  fresh : ∀ j ∈ s.jobs, j.id ≠ s.nextJobId
  layouts : ∀ j ∈ s.jobs, j.layout.length ≤ 40

/-- The sector reconciliation table: at most 1024 entries in strict key order, of at most 4 candidates each (R113, R115). -/
structure State.TableSound (s : State) : Prop where
  count : s.entries.length ≤ 1024
  order : s.entries.Pairwise fun a b => a.key.before b.key = true
  candidates : ∀ e ∈ s.entries, e.candidates.length ≤ 4

/-! ## Frames -/

/-- Every frame by its use: pool, landing, candidate, inbound, work (R155). -/
def State.allFrames (s : State) : List Nat :=
  s.pool ++ [s.channelA.placeOne.frame, s.channelA.placeTwo.frame, s.channelB.placeOne.frame, s.channelB.placeTwo.frame]
    ++ s.framesOut

/-- The unit is VOTING with a request, inputs and a work frame, or IDLE with none of the three (R142, R160). -/
abbrev Synth.Sound (u : Synth) : Prop :=
  (u.inputs.isSome = u.inHand.isSome) ∧ (u.workFrame.isSome = u.inHand.isSome)

/-- Each of the 2048 frames is in exactly one use (R155). -/
structure State.FramesSound (s : State) : Prop where
  unit : s.synth.Sound
  uses : s.allFrames.Perm (List.range 2048)

/-! ## The link port -/

/-- The reserved places are those of the jobs' notices and of the SYNTHESIZE requests (R60, R153, R191), filled and reserved
places do not exceed 32 (R191), and the queues hold what R187 lets them. -/
structure State.LinkSound (s : State) : Prop where
  reserved : s.link.reserved = s.jobs.length + s.synth.commandRequests
  places : s.link.responses.length + s.link.reserved ≤ 32
  console : s.link.console.records.length ≤ 8 ∧ s.link.console.assembly.length ≤ 3
  transfer : s.link.transfer.records.length ≤ 8 ∧ s.link.transfer.assembly.length ≤ 3
  responses : ∀ r ∈ s.link.responses, 2 ≤ r.length ∧ r.length ≤ 16
  wordsRead : ∀ r, s.link.responses.head? = some r → s.link.wordsRead < r.length
  empty : s.link.responses = [] → s.link.wordsRead = 0
  level : s.link.transferLevel ≤ 3

/-- The tables of the part are sound. -/
structure State.TablesSound (s : State) : Prop where
  memory : s.memory.wf = true
  ports : s.PortsSound
  volumes : s.VolumesSound
  profiles : s.ProfilesSound
  jobs : s.JobsSound
  table : s.TableSound

/-! ## The terms of the claims about commands -/

/-- The row of a host command given in queue `q` with this tag. -/
def instrOf (q : Queue) (tag : BitVec 8) : HostCommand → Instr
  | .unknown code => .unknownCommand q tag code
  | .driveConfig port f => .driveConfig q tag port f
  | .park port => .park q tag port
  | .retension port => .retension q tag port
  | .driveReset port => .driveReset q tag port
  | .mount h g m => .mount q tag h g m
  | .defineView h f => .defineView q tag h f
  | .confirm h => .confirm q tag h
  | .unmount h => .unmount q tag h
  | .describe h => .describe q tag h
  | .setProfile slot m a => .setProfile q tag slot m a
  | .clearProfile slot => .clearProfile q tag slot
  | .setDefaults a => .setDefaults q tag a
  | .readProfile slot => .readProfile q tag slot
  | .probeProfile b => .probeProfile q tag b
  | .readBand b => .readBand q tag b
  | .cancel job => .cancel q tag job
  | .hold job n => .hold q tag job n
  | .lookup k w => .lookup q tag k w
  | .find k w states => .find q tag k w states
  | .fetch k n => .fetch q tag k n
  | .choose k n => .choose q tag k n
  | .amend k check => .amend q tag k check
  | .retire k => .retire q tag k
  | .retireBand b scope => .retireBand q tag b scope
  | .retireVolume h scope => .retireVolume q tag h scope
  | .synthesize k => .synthesize q tag k
  | .abortTransfer => .abortTransfer q tag
  | .setTransferLevel level => .setTransferLevel q tag level
  | .status part n => .status q tag part n
  | .clearFlags flags => .clearFlags q tag flags
  | .restart => .restart q tag

/-- The intake stands ready for one command: both lists are empty and 2 places are free (R189). -/
structure State.Ready (s : State) : Prop where
  console : s.link.console.records = []
  transfer : s.link.transfer.records = []
  places : 2 ≤ s.link.freePlaces

/-- An ANSWER record (R193, R204). -/
def answerOf (q : Queue) (tag command : BitVec 8) (code : AnswerCode) (body : List Word) : List Word :=
  responseRecord .answer q tag code.number command body

/-- A REFUSAL record that names no handle (R193, R204). -/
def refusalOf (q : Queue) (tag command : BitVec 8) (code : RefusalCode) (body : List Word) : List Word :=
  responseRecord .refusal q tag code.number command (refusalWord none command :: body)

/-- A REFUSAL record that names the handle that failed (R31 to R33, R204). -/
def refusalNaming (q : Queue) (tag command : BitVec 8) (code : RefusalCode) (handle : Nat) (body : List Word) : List Word :=
  responseRecord .refusal q tag code.number command (refusalWord (some handle) command :: body)

/-- What taking one command from queue `q` does before the command is judged: the preference names the other queue (R189),
and one place is reserved (R190). -/
def State.taken (s : State) (q : Queue) : State :=
  { s with link := { s.link with preference := otherQueue q, reserved := s.link.reserved + 1 } }

/-- What taking one command from queue `q` and posting its one response does to the link port: the preference names the
other queue (R189), and the response stands at the end of the response queue (R191). -/
def State.answered (s : State) (q : Queue) (response : List Word) : State :=
  { s with link := { s.link with preference := otherQueue q, responses := s.link.responses ++ [response] } }

/-- Command `i` of queue `q` is refused with this code and body, and changes nothing else. -/
def State.Refuses (s : State) (i : Instr) (q : Queue) (tag command : BitVec 8) (code : RefusalCode) (body : List Word) : Prop :=
  exec i s = .next (s.answered q (refusalOf q tag command code body))

/-- Command `i` of queue `q` is refused with this code, naming this handle, and changes nothing else. -/
def State.RefusesNaming (s : State) (i : Instr) (q : Queue) (tag command : BitVec 8) (code : RefusalCode) (handle : Nat)
    (body : List Word) : Prop :=
  exec i s = .next (s.answered q (refusalNaming q tag command code handle body))

/-! ## The terms of the claims about layouts -/

/-- The number in bits `high` to `low` of a word (chapter 11). -/
def bitsOf (w : Word) (high low : Nat) : Nat := (w.extractLsb' low (high + 1 - low)).toNat

/-- A word holds these numbers in these fields, each field given by its highest and lowest bit; a number wider than its field is cut to
its low bits (chapter 11). -/
def laidOut (w : Word) (fields : List (Nat × Nat × Nat)) : Prop :=
  ∀ f ∈ fields, bitsOf w f.1 f.2.1 = f.2.2 % 2 ^ (f.1 + 1 - f.2.1)

/-- The fields of a band in a command record, each by its word, its highest and its lowest bit, with its number (R202, R203). -/
def bandLayout (b : BandField) : List (Nat × Nat × Nat × Nat) :=
  [(0, 15, 10, b.handle.toNat), (0, 9, 0, b.cylinder.toNat), (1, 31, 26, b.head.toNat)]

/-- The fields of a key (R202, R203). -/
def keyLayout (k : KeyField) : List (Nat × Nat × Nat × Nat) :=
  [(0, 15, 10, k.handle.toNat), (0, 9, 0, k.cylinder.toNat), (1, 31, 26, k.head.toNat), (1, 25, 18, k.sector.toNat)]

/-- The attribute word, which parameter B holds (R201, R203). -/
def attributeLayout (a : AttributeField) : List (Nat × Nat × Nat × Nat) :=
  [(3, 31, 28, a.passLimit.toNat), (3, 27, 25, a.quorum.toNat), (3, 24, 22, a.tolerance.toNat), (3, 21, 21, a.escalate.toNat),
   (3, 20, 20, a.startFirst.toNat), (3, 19, 19, a.reseat.toNat), (3, 18, 18, a.park.toNat), (3, 17, 17, a.autoSynthesize.toNat)]

/-- The command code and the fields that each command reads, where R201 to R203 lay them. -/
def commandLayout : HostCommand → List (Nat × Nat × Nat × Nat)
  | .unknown code => [(0, 31, 24, code.toNat)]
  | .driveConfig port f =>
    [(0, 31, 24, 1), (1, 17, 10, port.toNat), (2, 31, 30, f.kind.toNat), (2, 29, 24, f.settle.toNat), (2, 23, 13, f.index.toNat),
     (2, 12, 0, f.mark.toNat), (3, 31, 25, f.interval.toNat), (3, 24, 24, f.auto.toNat)]
  | .park port => [(0, 31, 24, 2), (1, 17, 10, port.toNat)]
  | .retension port => [(0, 31, 24, 3), (1, 17, 10, port.toNat)]
  | .driveReset port => [(0, 31, 24, 4), (1, 17, 10, port.toNat)]
  | .mount h g m =>
    [(0, 31, 24, 8), (0, 15, 10, h.toNat), (2, 31, 21, g.cylinders.toNat), (2, 20, 15, g.heads.toNat), (2, 14, 9, g.sectors.toNat),
     (2, 8, 1, g.firstId.toNat), (3, 31, 30, m.size.toNat), (3, 29, 28, m.encoding.toNat), (3, 27, 26, m.rate.toNat), (3, 25, 23, m.cls.toNat),
     (3, 22, 20, m.level.toNat), (3, 19, 17, m.drive.toNat), (3, 16, 15, m.kind.toNat)]
  | .defineView h f =>
    [(0, 31, 24, 9), (0, 15, 10, h.toNat), (2, 31, 26, f.target.toNat), (2, 25, 16, f.offset.toNat), (2, 15, 5, f.limit.toNat),
     (2, 4, 2, f.level.toNat)]
  | .confirm h => [(0, 31, 24, 10), (0, 15, 10, h.toNat)]
  | .unmount h => [(0, 31, 24, 11), (0, 15, 10, h.toNat)]
  | .describe h => [(0, 31, 24, 12), (0, 15, 10, h.toNat)]
  | .setProfile slot m a =>
    [(0, 31, 24, 16), (0, 9, 0, m.cylinder.toNat), (1, 31, 26, m.head.toNat), (1, 17, 10, slot.toNat), (2, 31, 29, m.cls.toNat),
     (2, 28, 26, m.classMask.toNat), (2, 25, 16, m.cylinderMask.toNat), (2, 15, 15, m.anyHead.toNat)] ++ attributeLayout a
  | .clearProfile slot => [(0, 31, 24, 17), (1, 17, 10, slot.toNat)]
  | .setDefaults a => (0, 31, 24, 18) :: attributeLayout a
  | .readProfile slot => [(0, 31, 24, 19), (1, 17, 10, slot.toNat)]
  | .probeProfile b => (0, 31, 24, 20) :: bandLayout b
  | .readBand b => (0, 31, 24, 24) :: bandLayout b
  | .cancel job => [(0, 31, 24, 25), (2, 7, 0, job.toNat)]
  | .hold job n => [(0, 31, 24, 26), (2, 7, 0, job.toNat), (3, 4, 0, n.toNat)]
  | .lookup k window => (0, 31, 24, 32) :: (1, 17, 10, window.toNat) :: keyLayout k
  | .find k window states => (0, 31, 24, 33) :: (1, 17, 10, window.toNat) :: (2, 31, 0, states.toNat) :: keyLayout k
  | .fetch k candidate => (0, 31, 24, 34) :: (1, 17, 10, candidate.toNat) :: keyLayout k
  | .choose k candidate => (0, 31, 24, 35) :: (1, 17, 10, candidate.toNat) :: keyLayout k
  | .amend k check => (0, 31, 24, 36) :: (2, 31, 0, check.toNat) :: keyLayout k
  | .retire k => (0, 31, 24, 37) :: keyLayout k
  | .retireBand b scope => (0, 31, 24, 38) :: (1, 17, 10, scope.toNat) :: bandLayout b
  | .retireVolume h scope => [(0, 31, 24, 39), (0, 15, 10, h.toNat), (1, 17, 10, scope.toNat)]
  | .synthesize k => (0, 31, 24, 40) :: keyLayout k
  | .abortTransfer => [(0, 31, 24, 44)]
  | .setTransferLevel level => [(0, 31, 24, 48), (2, 2, 0, level.toNat)]
  | .status part number => [(0, 31, 24, 49), (1, 17, 10, part.toNat), (2, 7, 0, number.toNat)]
  | .clearFlags flags => [(0, 31, 24, 50), (2, 5, 0, flags.toNat)]
  | .restart => [(0, 31, 24, 51)]

/-- The four words of a record spell this command with this tag (R202): each field the command reads holds its number, and every other
bit is free. -/
def spells (r : Record) (tag : BitVec 8) (command : HostCommand) : Prop :=
  ∀ f ∈ (0, 23, 16, tag.toNat) :: commandLayout command, bitsOf ([r.w0, r.w1, r.w2, r.w3].getD f.1 0) f.2.1 f.2.2.1 = f.2.2.2

/-! ## The terms of the claims about jobs and their passes -/

/-- The state with record `j` in the place of the job of its id. -/
def State.withJob (s : State) (j : Job) : State := { s with jobs := s.jobs.map fun x => if x.id == j.id then j else x }

/-- A key of the band of a job. -/
abbrev Key.OfBand (k : Key) (j : Job) : Prop := k.handle = j.handle ∧ k.cylinder = j.cylinder ∧ k.head = j.head

/-- The channel FREE: owner, port and pass fields at their power-on values, grant count and landing places kept (R92, R96). -/
def Channel.freed (ch : Channel) : Channel :=
  { ch with state := .free, owner := none, port := none, parameters := none, startId := none, indexesSeen := 0, headersTaken := 0
            readingsPlaced := 0, endPending := none }

/-- The channel granted to job `j` (R95). -/
def Channel.grantedTo (ch : Channel) (j : Job) : Channel :=
  { ch with state := .armed, owner := some j.id, port := some j.drive, grants := satSucc 65535 ch.grants }

/-- The port as its stream starts (R14, R15, R20): the watchdog at its full time, and a cartridge port counts the pass, is no longer at
the start and moves its tape. -/
def Port.streamStarted (p : Port) : Port :=
  if p.kind = .cartridge then
    { p with state := .streaming, streamWatchdog := some p.markTimeout, passCount := p.passCount + 1, atStart := false
             requests := p.requests ++ [.moveForward] }
  else { p with state := .streaming, streamWatchdog := some p.indexTimeout }

/-- The port as the job manager meets a due retension (R21, R75): with auto-retension on, the retension starts. -/
def Port.retensionMet (p : Port) : Port :=
  if p.autoRetension then
    { p with state := .retensioning, band := none, atStart := false, retensionWatchdog := some 240000
             requests := p.requests ++ [.windEndToEnd] }
  else p

/-- The pass set up at stream start, with its parameters (R69, R99). -/
def Channel.passSet (ch : Channel) (parameters : PassParameters) : Channel :=
  { ch with state := .armed, parameters := some parameters, startId := none, indexesSeen := 0, headersTaken := 0, readingsPlaced := 0
            endPending := none }

/-- The port with its stream ended at the request of its channel (R16). -/
def Port.streamEnded (p : Port) : Port :=
  { p with state := .onBand, streamWatchdog := none, requests := p.requests ++ if p.kind = .cartridge then [.stopTape] else [] }

/-- The port as `p` enters PARKING (R18; the motor and the counted step of a floppy port are logs 6 and 7). -/
def Port.parkStarted (p : Port) : Port :=
  if p.kind = .cartridge then
    { p with state := .parking, band := none, atStart := false, overtimeTimer := some 10000, motion := .still
             requests := p.requests ++ [.rewind] }
  else
    { p with state := .parking, band := none, atStart := false, overtimeTimer := some 10000, motion := .still, motor := true
             spinUp := p.spinUp || !p.motor, headCylinder := p.headCylinder.map (· - 1), settleTimer := some p.settleTime
             stepTimer := some 3, stepped := true, requests := p.requests ++ (if p.motor then [] else [.motorOn]) ++ [.stepOut] }

/-- The port as `p`, on the band, begins a reseat (R12): a cartridge drive is sent to the band again; a floppy head steps off its
cylinder, outward or from cylinder 0 inward, and the step back is due. -/
def Port.reseatStarted (p : Port) (band : BandAddress) : Port :=
  let entered : Port := { p with state := .positioning, band := some band, overtimeTimer := some 10000, positioned := false }
  if p.kind = .cartridge then
    { entered with stepped := false, motion := .still, stepTimer := none, requests := p.requests ++ [.position band] }
  else
    { entered with
      stepped := true, motion := .seeking, settleTimer := some p.settleTime, stepTimer := some 3
      headCylinder := some (if band.cylinder = 0 then 1 else band.cylinder - 1)
      requests := p.requests ++ [if band.cylinder = 0 then .stepIn else .stepOut] }

/-- The state in which job `j` streams through channel `c`, whose record was `ch` (R14, R15, R20, R69, R99): with the parameters of its next
pass, which are those of its volume (log 35), the port's watchdog running, and a pass counted by a cartridge port. -/
def State.streamed (u : State) (c : ChannelName) (ch : Channel) (j : Job) (m : Medium) : State :=
  ({ u.withJob { j with layout := [], phase := .capturing, progress := false, state := .streaming } with
    ports := u.ports.set j.drive (u.port j.drive).streamStarted } : State).setChannel c
      (ch.passSet ⟨j.passesRun + 1, j.tolerance, j.attributes.startRule, m.kind, m.geometry.encoding, m.geometry.rate⟩)

/-- The state in which job `j`, its stream refused with retension due, has given back channel `c`, whose record was `ch` (R75, R98; log 23):
its hold is broken, and it waits for a retension, which starts at once with auto-retension on. -/
def State.turnedBack (u : State) (c : ChannelName) (ch : Channel) (j : Job) : State :=
  ({ u.withJob { j.breakHold with layout := [], phase := .capturing, progress := false, state := .retensionWait } with
    ports := u.ports.set j.drive (u.port j.drive).retensionMet } : State).setChannel c ch.freed

/-- In state `u`, whose channel `c` is FREE, that channel is granted to these waits, and `t` follows (R75, R95, R96): to the oldest, whose
job streams; where its stream is refused with retension due, to the next. -/
def State.Regrants : List Nat → State → State → ChannelName → Prop
  | [], u, t, _ => t = u
  | id :: rest, u, t, c => ∀ k m, u.job id = some k → u.medium k.handle = some m → (u.port k.drive).state = .onBand →
      (u.port k.drive).atStart = true →
      ((u.port k.drive).kind ≠ .cartridge ∨ (u.port k.drive).passCount ≠ (u.port k.drive).retensionInterval →
        t = ({ u with waits := rest } : State).streamed c ((u.channel c).grantedTo k) k m)
      ∧ ((u.port k.drive).kind = .cartridge → (u.port k.drive).passCount = (u.port k.drive).retensionInterval →
        State.Regrants rest (({ u with waits := rest } : State).turnedBack c ((u.channel c).grantedTo k) k) t c)

/-- In state `u` job `j`, its port ON_BAND with at-start yes, goes on as granted through channel `c`, whose record is then `ch`, and `t`
follows (R14, R69, R75): the job streams, or, with retension due, gives the channel back. -/
structure State.StartsPass (u t : State) (c : ChannelName) (ch : Channel) (j : Job) (m : Medium) : Prop where
  streams : (u.port j.drive).state = .onBand → (u.port j.drive).atStart = true → ch.receipt = none →
    (u.port j.drive).kind ≠ .cartridge ∨ (u.port j.drive).passCount ≠ (u.port j.drive).retensionInterval → t = u.streamed c ch j m
  refused : (u.port j.drive).state = .onBand → (u.port j.drive).atStart = true → ch.receipt = none → (u.port j.drive).kind = .cartridge →
    (u.port j.drive).passCount = (u.port j.drive).retensionInterval → State.Regrants u.waits (u.turnedBack c ch j) t c

/-- In state `u` channel `c`, with no sector in receipt, is released, and `t` follows (R96): it is FREE, and granted to the waits, if any is
listed. -/
def State.Released (u t : State) (c : ChannelName) : Prop := State.Regrants u.waits (u.setChannel c (u.channel c).freed) t c

/-- In state `u` job `j` enters AWAITING_CHANNEL, and `t` follows (R69, R94, R95): through a channel it holds it goes on as granted;
otherwise channel A, or else B, is granted to it where it is FREE, and the job waits where neither is. -/
structure State.AwaitsChannel (u t : State) (j : Job) : Prop where
  waits : u.channelOf j.id = none → u.channelA.state ≠ .free → u.channelB.state ≠ .free →
    t = { u.withJob { j with state := .awaitingChannel } with waits := u.waits ++ [j.id] }
  granted : ∀ c m, u.channelOf j.id = none → u.medium j.handle = some m →
    (c = .a ∧ u.channelA.state = .free) ∨ (c = .b ∧ u.channelA.state ≠ .free ∧ u.channelB.state = .free) →
    u.StartsPass t c ((u.channel c).grantedTo j) j m
  held : ∀ c m, u.channelOf j.id = some c → u.medium j.handle = some m → u.StartsPass t c (u.channel c) j m

/-- In state `u` job `j` enters POSITIONING with a positioning request at its port, and `t` follows (R8 to R10, R66). A floppy port whose
motor is up, and whose head stands on the cylinder, is ON_BAND at once, and the job awaits a channel. -/
structure State.Positions (u t : State) (j : Job) (m : Medium) : Prop where
  proceeds : (u.port j.drive).kind = .cartridge ∨ (u.port j.drive).motor = false ∨ (u.port j.drive).ready = false
      ∨ (u.port j.drive).spinUp = true ∨ (u.port j.drive).headCylinder ≠ some j.cylinder →
    t = { u.withJob { j with state := .positioning } with
          ports := u.ports.set j.drive ((u.port j.drive).positionRequest ⟨j.cylinder, j.head⟩ (m.geometry.encoding, m.geometry.rate)) }
  atOnce : (u.port j.drive).kind ≠ .cartridge → (u.port j.drive).motor = true → (u.port j.drive).ready = true →
    (u.port j.drive).spinUp = false → (u.port j.drive).headCylinder = some j.cylinder →
    ({ u.withJob { j with state := .positioning } with
        ports := u.ports.set j.drive
          { (u.port j.drive).positionRequest ⟨j.cylinder, j.head⟩ (m.geometry.encoding, m.geometry.rate) with
            state := .onBand, overtimeTimer := none, atStart := true } } : State).AwaitsChannel t { j with state := .positioning }

/-- In state `u` a port starts its queued job `j`, whose medium is present, and `t` follows (R64, steps 2 to 4): with retension due the job
waits for one; on the port's band, at the start, it awaits a channel; otherwise it positions. -/
structure State.Starts (u t : State) (j : Job) (m : Medium) : Prop where
  retensions : (u.port j.drive).kind = .cartridge → (u.port j.drive).passCount = (u.port j.drive).retensionInterval →
    t = { u.withJob { j with state := .retensionWait } with ports := u.ports.set j.drive (u.port j.drive).retensionMet }
  onBand : (u.port j.drive).kind ≠ .cartridge ∨ (u.port j.drive).passCount ≠ (u.port j.drive).retensionInterval →
    (u.port j.drive).state = .onBand → (u.port j.drive).band = some ⟨j.cylinder, j.head⟩ → (u.port j.drive).atStart = true →
    u.AwaitsChannel t j
  positions : (u.port j.drive).kind ≠ .cartridge ∨ (u.port j.drive).passCount ≠ (u.port j.drive).retensionInterval →
    (u.port j.drive).state ≠ .onBand ∨ (u.port j.drive).band ≠ some ⟨j.cylinder, j.head⟩ ∨ (u.port j.drive).atStart = false →
    u.Positions t j m

/-- The state with the notice of job `j` posted through its reservation and the job out of the table (R63, R90). -/
def State.left (s : State) (j : Job) (e : Ending) : State :=
  { s with jobs := s.jobs.filter fun x => x.id != j.id
           link := { s.link with reserved := s.link.reserved - 1
                                 responses := s.link.responses ++ [j.notice e (s.bandEntries j)] } }

/-- In state `u` port `p` is offered to its queued jobs, and `t` follows (R64). -/
inductive State.Offers : State → State → Fin 4 → Prop where
  /-- A port with an active job, or neither IDLE nor ON_BAND, is not offered. -/
  | rests {u : State} {p : Fin 4} : (∃ j ∈ u.jobs, j.drive = p ∧ j.state ≠ .queued) ∨ (u.port p).state ∉ [.idle, .onBand] → State.Offers u u p
  /-- A port without jobs stays as it is. -/
  | nothing {u : State} {p : Fin 4} : (∀ j ∈ u.jobs, j.drive ≠ p) → State.Offers u u p
  /-- The oldest queued job starts, its medium present. -/
  | starts {u t : State} {p : Fin 4} (j : Job) (m : Medium) (before after : List Job) : (u.port p).state ∈ [.idle, .onBand] →
      (∀ x ∈ u.jobs, x.drive = p → x.state = .queued) → u.jobs = before ++ j :: after → j.drive = p → (∀ x ∈ before, x.drive ≠ p) →
      u.medium j.handle = some m → m.present = true → u.Starts t j m → State.Offers u t p
  /-- The oldest queued job fails with NOT_PRESENT, its medium absent, and the offer passes to the next. -/
  | passes {u t : State} {p : Fin 4} (j : Job) (before after : List Job) : (u.port p).state ∈ [.idle, .onBand] →
      (∀ x ∈ u.jobs, x.drive = p → x.state = .queued) → u.jobs = before ++ j :: after → j.drive = p → (∀ x ∈ before, x.drive ≠ p) →
      (∀ m, u.medium j.handle = some m → m.present = false) →
      State.Offers (u.left (j.decide (.failed .notPresent)) (j.ending.getD (.failed .notPresent))) t p → State.Offers u t p

/-- In state `u` job `j` has left its port with ending `e`, and `t` follows (R65, R80, R83 to R85). With park after job on, a close and a
host's cancel of a stream or of a wait for a channel park the port, from IDLE too (log 36), and a host's cancel of a positioning leaves it
to park on arrival. Otherwise the port is offered. -/
structure State.Continues (u t : State) (j : Job) (e : Ending) : Prop where
  parks : (u.port j.drive).state ∈ [.idle, .onBand] → j.attributes.park = true →
    (e = .done ∨ (e = .cancelled .host ∧ j.state ∈ [.streaming, .awaitingChannel])) →
    t = { u with ports := u.ports.set j.drive (u.port j.drive).parkStarted }
  arrives : (u.port j.drive).state = .positioning → j.attributes.park = true → e = .cancelled .host → j.state ∈ [.positioning, .reseating] →
    t = { u with ports := u.ports.set j.drive { u.port j.drive with parkOnArrival := true } }
  offers : (j.attributes.park = true → (e = .done ∨ (e = .cancelled .host ∧ j.state ∈ [.streaming, .awaitingChannel])) →
      (u.port j.drive).state ∉ [.idle, .onBand]) →
    (j.attributes.park = true → e = .cancelled .host → j.state ∈ [.positioning, .reseating] → (u.port j.drive).state ≠ .positioning) →
    u.Offers t j.drive

/-- In state `u` the ending `e` of job `j`, which waits for no drain and no close, takes it from the table, and `t` follows (R63, R65): the
notice first, then the port (log 3). -/
def State.Leaves (u t : State) (j : Job) (e : Ending) : Prop := (u.left j e).Continues t j e

/-- Candidate `k` is the one with the lowest agree count of the candidates `p` admits, the oldest of several (R128, R150, R181). -/
def Entry.LowestAgree (e : Entry) (p : Candidate → Prop) (k : Nat) : Prop :=
  ∃ c, e.candidates[k]? = some c ∧ p c ∧ ∀ i x, e.candidates[i]? = some x → p x → c.agree < x.agree ∨ (c.agree = x.agree ∧ k ≤ i)

/-- An entry as a close marks it where no synthesis is asked for or the synthesis gave no clean result (R79). One pinned then stays WEAK
and is skipped, also where the pin came during the vote (log 18). -/
def Entry.markedAtClose (e : Entry) : Entry :=
  match e.state with
  | .weak => if e.pinned then e else { e with state := .exhausted, best := none, settledQuorum := none, amendSource := none }
  | .expected | .headerOnly => { e with state := .missing, best := none, settledQuorum := none, amendSource := none }
  | .tentative | .settled | .disputed | .synthesized | .amended | .missing | .exhausted => e

/-- Whether a close asks for a synthesis at this sector id: its entry is WEAK, of at least 3 candidates, and not pinned (R78). -/
def State.asksAt (u : State) (j : Job) (sector : Nat) : Bool :=
  (u.entry (j.keyOf sector)).any fun e => e.state == .weak && decide (3 ≤ e.candidates.length) && !e.pinned

/-- The number of the ids whose entry is WEAK and pinned (R79). -/
def State.pinnedWeak (u : State) (j : Job) (ids : List Nat) : Nat :=
  ids.countP fun i => (u.entry (j.keyOf i)).any fun e => e.state == .weak && e.pinned

/-- The entries of job `j`'s band at these ids marked, with skipped raised once for each pinned WEAK one and readings dropped once for
each synthesis that was `lacking` a frame (R79). -/
def State.markedAt (u : State) (j : Job) (ids : List Nat) (lacking : Nat) : State :=
  { u.withJob { j with skipped := (satSucc 32)^[u.pinnedWeak j ids] j.skipped
                       readingsDropped := (satSucc 65535)^[lacking] j.readingsDropped } with
    entries := u.entries.map fun x => if x.key.OfBand j ∧ x.key.sector ∈ ids then x.markedAtClose else x }

/-- Job `j`'s record with those counts, the ending DONE (R80) and its hold broken (log 22). -/
def Job.closedDone (j : Job) (pinned lacking : Nat) : Job :=
  { j.breakHold with ending := some .done, skipped := (satSucc 32)^[pinned] j.skipped
                     readingsDropped := (satSucc 65535)^[lacking] j.readingsDropped }

/-- In state `u` the close of job `j`, in CLOSING, takes the sector ids it has not reached, and `t` follows (R78 to R80, R152). Where it
asks for no synthesis, or the unit's pool is empty at each, it marks them all and the job leaves DONE; otherwise it marks the ids before
the first it asks at and waits for that request, which starts at an idle unit, with the pool's head (log 9), and joins the list of any
other. -/
structure State.CloseRuns (u t : State) (j : Job) (ids : List Nat) : Prop where
  unasked : j.ending = none → j.attributes.autoSynthesize = false ∨ (∀ i ∈ ids, u.asksAt j i = false) →
    (u.markedAt j ids 0).Leaves t (j.closedDone (u.pinnedWeak j ids) 0) .done
  lacking : j.ending = none → j.attributes.autoSynthesize = true → u.synth.inputs = none → u.synth.wait = [] → u.pool = [] → ids.Nodup →
    (∀ i ∈ ids, ∀ e, u.entry (j.keyOf i) = some e → u.asksAt j i = true → 3 ≤ e.readCount) →
    (u.markedAt j ids (ids.countP (u.asksAt j))).Leaves t (j.closedDone (u.pinnedWeak j ids) (ids.countP (u.asksAt j))) .done
  asks : ∀ before sector after e m (v : State), ids = before ++ sector :: after → j.attributes.autoSynthesize = true →
    (∀ i ∈ before, u.asksAt j i = false) → u.asksAt j sector = true → u.entry (j.keyOf sector) = some e → 3 ≤ e.readCount →
    u.medium j.handle = some m →
    v = (u.markedAt j before 0).withJob
        { j with skipped := (satSucc 32)^[u.pinnedWeak j before] j.skipped, closeHand := some sector, closeLeft := after } →
    (∀ frame rest, u.synth.inputs = none → u.synth.wait = [] → u.pool = frame :: rest →
      t = { v with
            pool := rest
            synth := { u.synth with
              inHand := some ⟨j.keyOf sector, .close j.id⟩, workFrame := some frame
              inputs := some (u.synthInputs m.kind e.size e.candidates 0), kind := m.kind, contested := 0, ties := 0 } })
    ∧ (u.synth.inputs ≠ none ∨ u.synth.wait ≠ [] →
        t = { v with synth := { u.synth with wait := u.synth.wait ++ [⟨j.keyOf sector, .close j.id⟩] } })

/-- In state `u` job `j`, which does not wait at the arbiter, enters CLOSING, and `t` follows (R72, R78, R96, R97): a channel it holds is
released with its hold at 0, and the close begins at the band's first sector id. -/
structure State.Closes (u t : State) (j : Job) (m : Medium) : Prop where
  free : u.channelOf j.id = none →
    (u.withJob { j with state := .closing }).CloseRuns t { j with state := .closing } ((List.range m.geometry.sectors).map (· + m.geometry.firstId))
  held : ∀ c, u.channelOf j.id = some c → (u.channel c).receipt = none → j.id ∉ u.waits →
    ∃ v : State, (u.withJob { j with state := .closing, holdRemaining := 0 }).Released v c
      ∧ v.CloseRuns t { j with state := .closing, holdRemaining := 0 } ((List.range m.geometry.sectors).map (· + m.geometry.firstId))

/-- In state `u` the drained pass of job `j` is judged, and `t` follows (R72 to R74): the job closes when each entry of its band is closed
or DISPUTED, or its passes are used up; otherwise it goes round again, with a raised tolerance after a pass without progress where it
escalates, through a reseat where the port or the snapshot asks for one. A floppy port's head stands on its cylinder. -/
structure State.Judged (u t : State) (j : Job) (m : Medium) (again : Job) : Prop where
  closes : (∀ i, m.geometry.firstId ≤ i → i < m.geometry.firstId + m.geometry.sectors →
        ∃ e, u.entry (j.keyOf i) = some e ∧ e.state ∈ [.settled, .synthesized, .amended, .disputed])
      ∨ j.attributes.passLimit ≤ j.passesRun →
    u.Closes t j m
  reseats : ∀ i, m.geometry.firstId ≤ i → i < m.geometry.firstId + m.geometry.sectors →
    (∀ e, u.entry (j.keyOf i) = some e → e.state ∉ [.settled, .synthesized, .amended, .disputed]) → j.passesRun < j.attributes.passLimit →
    (u.port j.drive).kind = .cartridge ∨ (j.attributes.reseat = true ∧ (u.port j.drive).headCylinder = some j.cylinder) →
    t = { u.withJob { again with state := .reseating } with
          ports := u.ports.set j.drive ((u.port j.drive).reseatStarted ⟨j.cylinder, j.head⟩) }
  awaits : ∀ i, m.geometry.firstId ≤ i → i < m.geometry.firstId + m.geometry.sectors →
    (∀ e, u.entry (j.keyOf i) = some e → e.state ∉ [.settled, .synthesized, .amended, .disputed]) → j.passesRun < j.attributes.passLimit →
    (u.port j.drive).kind ≠ .cartridge → j.attributes.reseat = false →
    (u.withJob again).AwaitsChannel t again

/-- In state `u` a pass of job `j` may have been drained, and `t` follows (R63, R70): nothing while the job captures or a reading of its
band stands in the input queue; else the job leaves where its ending is decided, and its pass is judged where it is not (log 20). -/
structure State.GoesOn (u t : State) (j : Job) : Prop where
  waits : (j.state ≠ .streaming ∨ j.phase = .capturing ∨ ∃ r ∈ u.input, r.key.OfBand j) → t = u
  leaves : ∀ e, j.state = .streaming → j.phase = .draining → (∀ r ∈ u.input, ¬r.key.OfBand j) → j.ending = some e → u.Leaves t j e
  judged : ∀ m, j.state = .streaming → j.phase = .draining → (∀ r ∈ u.input, ¬r.key.OfBand j) → j.ending = none →
    u.medium j.handle = some m →
    u.Judged t j m { j with tolerance := if j.attributes.escalate && !j.progress then satSucc 7 j.tolerance else j.tolerance }

/-- The record of job `j` as its pass ends normally (R70, R77, R97). -/
def Job.passCounted (j : Job) : Job :=
  { j with passesRun := satSucc 15 j.passesRun, consecutiveFaults := 0, holdRemaining := j.holdRemaining - 1, phase := .draining }

/-- The state with the stream of job `j` ended at its port and the pass counted (R16, R70). -/
def State.passEnded (u : State) (j : Job) : State :=
  { u.withJob j.passCounted with ports := u.ports.set j.drive (u.port j.drive).streamEnded }

/-- In state `u` the pass of job `j`, which does not wait at the arbiter, has ended and channel `c`, with no sector in receipt, is released,
and `t` follows (R96): then the job goes on (log 3). -/
def State.GivesBack (u t : State) (c : ChannelName) (j : Job) : Prop :=
  j.id ∉ u.waits → ∃ v : State, u.Released v c ∧ v.GoesOn t j

/-- In state `u`, where no sector is in receipt, the pass of job `j` through channel `c` ends normally, and `t` follows (R16, R70, R77, R95
to R97, R102). With the hold still above 0 the channel is kept, HELD, with its end pending none, the model's choice (log 44); at 0 it is
given back. -/
structure State.EndsPass (u t : State) (c : ChannelName) (j : Job) : Prop where
  held : 1 < j.holdRemaining →
    ((u.passEnded j).setChannel c { u.channel c with state := .held, endPending := none }).GoesOn t j.passCounted
  released : j.holdRemaining ≤ 1 → (u.passEnded j).GivesBack t c j.passCounted

/-- In state `u`, where no sector is in receipt, the pass of job `j` through channel `c` ends by a cancel, uncounted, and `t` follows
(R85, R102). -/
def State.EndsCancelled (u t : State) (c : ChannelName) (j : Job) : Prop :=
  ({ u.withJob { j with phase := .draining } with ports := u.ports.set j.drive (u.port j.drive).streamEnded } : State).GivesBack t c
    { j with phase := .draining }

/-! ## The terms of the claims about endings from outside -/

/-- The channel with a sector in receipt discarded, its landing place FREE (R93, R110). -/
def Channel.discarded (ch : Channel) : Channel :=
  match ch.receipt with
  | some r => { ch.setCondition r.place .free with receipt := none }
  | none => ch

/-- In state `u` the channel job `id` owns, if it owns one, is released, and `t` follows (R89, R96). -/
structure State.GivesUp (u t : State) (id : Nat) : Prop where
  none : u.channelOf id = none → t = u
  held : ∀ c, u.channelOf id = some c → (u.channel c).receipt = .none → u.Released t c

/-- The state with the ending of job `j` decided and its wait withdrawn (R63, R89): `k` is its record then. -/
def State.stopped (u : State) (j k : Job) : State := { u.withJob k with waits := u.waits.filter (· != j.id) }

/-- Job `j`, stopped from outside, leaves the table at once: it waits for no drain (log 20) and no close (R63, R81, R86, R87). -/
def State.LeavesAtOnce (u : State) (j : Job) : Prop :=
  j.state ∈ [.queued, .positioning, .awaitingChannel, .reseating, .retensionWait] ∨ (j.state = .streaming ∧ ∀ r ∈ u.input, ¬r.key.OfBand j)

/-- In state `u` a media change or a DRIVE RESET stops job `j` with ending `e`, and `t` follows, its port not yet parked or offered (R63,
R70, R81, R86, R87, R110). A channel it owns is released. Its notice posts at once, with the ending decided first, but for a stream's,
which waits for the drain (log 20), a sector in receipt discarded, and a close's, which goes on. -/
structure State.Stops (u t : State) (j : Job) (e : Ending) : Prop where
  atOnce : j.state ∈ [.queued, .positioning, .awaitingChannel, .reseating, .retensionWait] →
    ∃ v : State, (u.stopped j (j.decide e)).GivesUp v j.id ∧ t = v.left (j.decide e) (j.ending.getD e)
  cut : ∀ k : Job, ∀ w : State, j.state = .streaming → k = { j.decide e with phase := .draining } →
    (u.channelOf j.id = none → w = u.stopped j k) →
    (∀ c, u.channelOf j.id = some c → w = (u.stopped j k).setChannel c (u.channel c).discarded) →
    ∃ v : State, w.GivesUp v j.id ∧ ((∃ r ∈ u.input, r.key.OfBand j) → t = v)
      ∧ ((∀ r ∈ u.input, ¬r.key.OfBand j) → t = v.left k (j.ending.getD e))
  closes : j.state = .closing → t = u.stopped j (j.decide e)

/-- The port with its work broken off (R7, R26, R27): IDLE, every timer stopped, the motor off, no band. -/
def Port.brokenOff (p : Port) : Port :=
  { p with
    state := .idle, band := none, motor := false, spinUp := false, atStart := false, settleTimer := none, overtimeTimer := none
    streamWatchdog := none, retensionWatchdog := none, stepTimer := none, motion := .still, parkOnArrival := false
    requests := p.requests ++ if p.motor then [.motorOff] else [] }

/-- The port after a media-change report, by its state (R7, R22). A RETENSIONING port faults, and its drive is asked to stop the tape; a
port that positions, is on a band or streams, and a cartridge port that parks, goes to IDLE; a cartridge port that is or goes there
begins its pass count anew. -/
def Port.mediaChanged (p : Port) : Port :=
  match p.state with
  | .offline | .faulted => p
  | .retensioning =>
    { p.brokenOff with
      state := .faulted, fault := some .retensionMediaChange
      requests := p.brokenOff.requests ++ if p.kind = .cartridge then [.stopTape] else [] }
  | .idle => { p with passCount := if p.kind = .cartridge then 0 else p.passCount }
  | .parking => if p.kind = .cartridge then { p.brokenOff with passCount := 0 } else p
  | .positioning | .onBand | .streaming => { p.brokenOff with passCount := if p.kind = .cartridge then 0 else p.passCount }

/-- The port after a DRIVE RESET (R6, R26): broken off, its fault and head cylinder lost, a tape asked to stop, and an inquiry made of the
drive, with ready no until it answers (log 5). -/
def Port.resetDone (p : Port) : Port :=
  { p.brokenOff with
    headCylinder := none, fault := none, ready := false
    requests := p.brokenOff.requests ++ (if p.kind = .cartridge then [.stopTape] else []) ++ [.statusInquiry] }

/-- The state without the jobs `js`, whose notices of ending `e` have posted in their order (R63, R87, R90). -/
def State.allLeft (u : State) (js : List Job) (e : Ending) : State :=
  { u with jobs := u.jobs.filter fun x => decide (∀ j ∈ js, j.id ≠ x.id)
           link := { u.link with
             reserved := u.link.reserved - js.length
             responses := u.link.responses ++ js.map fun j => (j.decide e).notice (j.ending.getD e) (u.bandEntries j) } }

/-! ## The terms of the claims about the synthesis unit -/

/-- In state `u` the first test of R144 that fails for a request of this key ends it with this code and body (R153). A SYNTHESIZE, where
`command` says so, is tested for a job of its band and may find its entry EXHAUSTED; a close's request is not, and may not. -/
def State.StartFails (u : State) (key : Key) (command : Bool) (code : RefusalCode) (body : List Word) : Prop :=
  (u.entry key = none ∧ code = .noEntry ∧ body = [])
    ∨ ∃ e, u.entry key = some e
      ∧ ((∃ j, command = true ∧ u.bandJob key.handle key.cylinder key.head = some j ∧ code = .bandActive ∧ body = [numberWord j.id])
        ∨ ((command = true → u.bandJob key.handle key.cylinder key.head = none)
          ∧ ((e.pinned = true ∧ code = .pinned ∧ body = [])
            ∨ (e.pinned = false
              ∧ ((¬(e.state = .weak ∨ (command = true ∧ e.state = .exhausted)) ∧ code = .state ∧ body = [numberWord e.state.number])
                ∨ ((e.state = .weak ∨ (command = true ∧ e.state = .exhausted))
                  ∧ ((e.readCount < 3 ∧ code = .tooFew ∧ body = [numberWord e.readCount])
                    ∨ (3 ≤ e.readCount ∧ u.pool = [] ∧ code = .noFrame ∧ body = []))))))))

/-- In state `u` the request of this key that the close of job `id` waited for has ended, and `t` follows (R81, R152): a close that was
stopped leaves with its ending; any other marks the entry it waited for as it now stands, a WEAK one pinned in the meantime skipped (log
18), and goes on with the ids it has not reached; its end breaks a hold (log 22). `lacking` is 1 where the request ended for want of a
frame, and counts a reading dropped (R79). -/
structure State.CloseResumes (u t : State) (id : Nat) (key : Key) (lacking : Nat) : Prop where
  stopped : ∀ j k sector e, u.job id = some j → j.closeHand = some sector → j.ending = some e → k = { j with closeHand := none } →
    (u.withJob k).Leaves t k e
  goesOn : ∀ j k sector, u.job id = some j → j.closeHand = some sector → j.ending = none → lacking = 0 ∨ key = j.keyOf sector →
    k = { j with closeHand := none } →
    ((u.withJob k).markedAt k [sector] lacking).CloseRuns t
      { k with skipped := (satSucc 32)^[u.pinnedWeak j [sector]] j.skipped
               readingsDropped := (satSucc 65535)^[lacking] j.readingsDropped } j.closeLeft

/-- In state `u` a request at the unit has ended, and `t` follows (R143, R144). -/
inductive State.Serves : State → State → Prop where
  /-- A unit that votes, or whose wait list is empty, does nothing. -/
  | rests {u : State} : u.synth.inputs ≠ none ∨ u.synth.wait = [] → State.Serves u u
  /-- An idle unit starts its oldest request: it takes the inputs and the work frame, and its tallies are 0. -/
  | starts {u : State} (r : SynthRequest) (rest : List SynthRequest) (e : Entry) (frame : Nat) (pool : List Nat) : u.synth.inputs = none →
      u.synth.wait = r :: rest → u.entry r.key = some e → e.pinned = false → 3 ≤ e.readCount → u.pool = frame :: pool →
      ((∃ id, r.source = .close id) ∧ e.state = .weak
        ∨ (∃ q tag via, r.source = .command q tag via) ∧ (e.state = .weak ∨ e.state = .exhausted)
          ∧ u.bandJob r.key.handle r.key.cylinder r.key.head = none) →
      State.Serves u { u with
        pool := pool
        synth := { u.synth with
          wait := rest, inHand := some r, workFrame := some frame
          inputs := some (u.synthInputs (u.kindOf r.key.handle) e.size e.candidates 0)
          kind := u.kindOf r.key.handle, contested := 0, ties := 0 } }
  /-- A SYNTHESIZE that fails at its start is refused, and the next request is taken. -/
  | refuses {u t : State} (key : Key) (q : Queue) (tag : BitVec 8) (via : Option Via) (rest : List SynthRequest) (code : RefusalCode)
      (body : List Word) : u.synth.inputs = none → u.synth.wait = ⟨key, .command q tag via⟩ :: rest → u.StartFails key true code body →
      State.Serves { u with
        synth := { u.synth with wait := rest }
        link := { u.link with
          reserved := u.link.reserved - 1, responses := u.link.responses ++ [refusalOf q tag 40 code body] } } t → State.Serves u t
  /-- A close's request that fails at its start is reported to the close, which goes on, and the next request is taken. -/
  | passes {u v t : State} (key : Key) (id : Nat) (rest : List SynthRequest) (code : RefusalCode) (body : List Word) :
      u.synth.inputs = none → u.synth.wait = ⟨key, .close id⟩ :: rest → u.StartFails key false code body →
      ({ u with synth := { u.synth with wait := rest } } : State).CloseResumes v id key (if code = .noFrame then 1 else 0) →
      State.Serves v t → State.Serves u t

end Sys2Proof.Machine
end

