-- ==== Sys2Proof/Certificates/Slice0/Obligations.lean ====
section
/-! DEFINITION. What the provers are asked to prove of the model. -/

open Sys2Proof Sys2Proof.Machine

/-! ## The step, the resets and the link port -/

/-- A step takes the command or event at the front of the queue and runs it on the state with the queue's rest. -/
def Obligations.StepRunsFrontCommand : Prop :=
  ∀ (s : State) (c : Instr) (rest : List Instr), s.pending = c :: rest → step s = exec c { s with pending := rest }

/-- Every command and event is answered with a next state, in every state, and none touches the queue of those that wait. -/
def Obligations.EveryCommandAnswers : Prop :=
  ∀ (i : Instr) (s : State), ∃ t, exec i s = .next t ∧ t.pending = s.pending

/-- Power-on and the RESET line (R200): the link port block, and every other block at the values of its own rule. At the RESET line every
landing place keeps its frame, and the frames of candidates, of an inbound transfer and of a vote go to the pool with their bytes (R138,
R155); that the pool then holds 2044 is said of a part whose frames obey their law. -/
def Obligations.ResetValues : Prop :=
  ∀ (s : State), ∀ i ∈ [Instr.powerOn, Instr.resetLine], ∃ t, exec i s = .next t
    ∧ (t.link.console.assembly = [] ∧ t.link.console.records = [] ∧ t.link.transfer.assembly = [] ∧ t.link.transfer.records = [])
    ∧ (t.link.responses = [] ∧ t.link.reserved = 0)
    ∧ (t.link.overflow = false ∧ t.link.portMisuse = false ∧ t.link.mediaChanged = ⟨false, false, false, false⟩)
    ∧ (t.link.transferLevel = 3 ∧ t.link.enables = 0 ∧ t.interrupt = false ∧ t.link.preference = .console)
    ∧ (∀ p, (t.port p).kind = .noDrive ∧ (t.port p).settleTime = 15 ∧ (t.port p).indexTimeout = 600 ∧ (t.port p).markTimeout = 2000
        ∧ (t.port p).retensionInterval = 24 ∧ (t.port p).autoRetension = true ∧ (t.port p).state = .offline ∧ (t.port p).band = none
        ∧ (t.port p).headCylinder = none ∧ (t.port p).motor = false ∧ (t.port p).spinUp = false ∧ (t.port p).ready = false
        ∧ (t.port p).atStart = false ∧ (t.port p).passCount = 0 ∧ (t.port p).fault = none ∧ (t.port p).settleTimer = none
        ∧ (t.port p).overtimeTimer = none ∧ (t.port p).streamWatchdog = none ∧ (t.port p).retensionWatchdog = none
        ∧ (t.port p).parkOnArrival = false)
    ∧ (∀ h, t.volume h = .unused)
    ∧ ((∀ k : Fin 10, t.profiles.slots[k] = none)
        ∧ t.profiles.default = { passLimit := 3, quorum := 2, tolerance := 2, escalate := true, startRule := .first, reseat := false,
                                 park := false, autoSynthesize := true })
    ∧ (t.jobs = [] ∧ t.nextJobId = 0)
    ∧ (∀ c, (t.channel c).state = .free ∧ (t.channel c).owner = none ∧ (t.channel c).port = none ∧ (t.channel c).parameters = none
        ∧ (t.channel c).startId = none ∧ (t.channel c).indexesSeen = 0 ∧ (t.channel c).headersTaken = 0
        ∧ (t.channel c).readingsPlaced = 0 ∧ (t.channel c).receipt = none ∧ (t.channel c).endPending = none ∧ (t.channel c).grants = 0
        ∧ (t.channel c).placeOne.condition = .free ∧ (t.channel c).placeTwo.condition = .free)
    ∧ (t.waits = [] ∧ t.input = [] ∧ t.entries = [])
    ∧ (t.synth.inHand = none ∧ t.synth.wait = [] ∧ t.synth.workFrame = none ∧ t.synth.inputs = none ∧ t.synth.contested = 0
        ∧ t.synth.ties = 0)
    ∧ (t.transfer = none ∧ t.closing = none)
    ∧ (i = .powerOn ∨ s.FramesSound → t.pool.length = 2044 ∧ t.poolLow = false)
    ∧ (i = .resetLine → t.memory = s.memory
        ∧ (∀ c, (t.channel c).placeOne.frame = (s.channel c).placeOne.frame ∧ (t.channel c).placeTwo.frame = (s.channel c).placeTwo.frame)
        ∧ ∀ f, f ∈ t.pool ↔ f ∈ s.pool ∨ (∃ e ∈ s.entries, ∃ k ∈ e.candidates, k.frame = f)
            ∨ (∃ x, s.transfer = some x ∧ x.direction = .inbound ∧ x.frame = f) ∨ s.synth.workFrame = some f)
    ∧ t.Ready

/-- Writes of the link port that open no work (R186, R196): a discarded write changes nothing, a write of the notify-enable
word replaces the five enables and nothing else. The reads that change nothing return what R186 and R207 give: 0 from a queue input,
the five enables, the status word with its counts, flags and port summaries (R195), the fill levels whole, and the identification word,
whose revision number the model leaves open (log 10). All are computed from the state they show (log 28); the reads of the response
output and of the data port are rows of their own. The bit of a yes is log 40. The interrupt line holds exactly its conditions. -/
def Obligations.RegisterWritesAndReads : Prop :=
  (∀ (l : ReadOnlyLocation) (w : Word) (s : State), exec (.registerWrite l w) s = .next s)
    ∧ (∀ (w : Word) (s : State), exec (.notifyEnableWrite w) s = .next { s with link := { s.link with enables := w.extractLsb' 0 5 } })
    ∧ (∀ s : State, s.linkRead .consoleInput = some 0 ∧ s.linkRead .transferInput = some 0
        ∧ s.linkRead .notifyEnable = some (s.link.enables.setWidth 32)
        ∧ s.linkRead .responseOutput = none ∧ s.linkRead .dataPort = none)
    ∧ (∀ s : State, ∃ w, s.linkRead .statusWord = some w
        ∧ laidOut w
            [(31, 30, min s.link.responses.length 3), (29, 28, min (8 - s.link.console.records.length) 3),
             (27, 26, min (8 - s.link.transfer.records.length) 3), (21, 21, s.link.overflow.toNat), (20, 20, s.link.portMisuse.toNat),
             (19, 19, if s.pool.length < 8 then 1 else 0),
             (18, 17, match s.transfer with | none => 0 | some t => if t.direction = .outbound then 1 else 2),
             (16, 16, if s.input = [] then 0 else 1)]
        ∧ ∀ p : Fin 4, laidOut w
            [(22 + p.val, 22 + p.val, (s.link.mediaChanged.get p).toNat),
             (4 * p.val + 3, 4 * p.val + 1,
              [PortState.offline, .idle, .positioning, .onBand, .streaming, .parking, .retensioning, .faulted].idxOf (s.port p).state),
             (4 * p.val, 4 * p.val, (s.port p).ready.toNat)])
    ∧ (∀ s : State, ∃ w, s.linkRead .fillLevels = some w
        ∧ laidOut w
            [(31, 28, s.link.console.records.length), (27, 24, s.link.transfer.records.length), (23, 22, s.link.console.assembly.length),
             (21, 20, s.link.transfer.assembly.length), (19, 14, s.link.responses.length), (13, 8, s.link.reserved), (7, 0, 0)])
    ∧ (∀ s : State, ∃ w, s.linkRead .identification = some w
        ∧ laidOut w [(31, 16, 240), (15, 8, Config.revision.toNat), (7, 0, 0)])
    ∧ (∀ s : State, s.interrupt = true ↔
        (s.link.enables.getLsbD 0 = true ∧ s.link.responses ≠ [])
          ∨ ∃ p : Fin 4, s.link.enables.getLsbD (1 + p.val) = true ∧ s.link.mediaChanged.get p = true)

/-- A word at a command queue input (R187): it joins the assembly. The fourth word completes a record, which the intake then meets as the
command it spells. While the intake is stalled, the record joins a list below 8 records, and is discarded with the overflow flag set at a
list of 8. The layout of a record (R202, R203): the code, the tag and each field a command reads lie in the bits given, and four words
that hold them are read as that command, and run as it at an intake that takes it, whatever their other bits. -/
def Obligations.CommandQueueWrite : Prop :=
  ∀ (s : State) (q : Queue) (w : Word),
    ((s.link.lane q).assembly.length < 3 →
      exec (.commandQueueWrite q w) s
        = .next { s with link := s.link.setLane q ⟨(s.link.lane q).assembly ++ [w], (s.link.lane q).records⟩ })
    ∧ (∀ a b c, (s.link.lane q).assembly = [a, b, c] → s.link.freePlaces < 2 →
        ((s.link.lane q).records.length < 8 →
          exec (.commandQueueWrite q w) s = .next { s with link := s.link.setLane q ⟨[], (s.link.lane q).records ++ [⟨a, b, c, w⟩]⟩ })
        ∧ (8 ≤ (s.link.lane q).records.length →
          exec (.commandQueueWrite q w) s
            = .next { s with link := { s.link.setLane q ⟨[], (s.link.lane q).records⟩ with overflow := true } }))
    ∧ (∀ (tag : BitVec 8) (command : HostCommand), command.wellFormed = true →
        (s.link.lane q).assembly = [(command.record tag).w0, (command.record tag).w1, (command.record tag).w2] →
        exec (.commandQueueWrite q (command.record tag).w3) s
          = exec (instrOf q tag command) { s with link := s.link.setLane q ⟨[], (s.link.lane q).records⟩ })
    ∧ (∀ (r : Record) (tag : BitVec 8) (command : HostCommand), command.wellFormed = true →
        spells (command.record tag) tag command
        ∧ (spells r tag command → r.command = command ∧ r.tag = tag ∧ r.code = command.code
          ∧ (s.Ready → (s.link.lane q).assembly = [r.w0, r.w1, r.w2] →
              exec (.commandQueueWrite q r.w3) s
                = exec (instrOf q tag command) { s with link := s.link.setLane q ⟨[], (s.link.lane q).records⟩ })))

/-- A read of the response queue output (R192): 0 from an empty queue; otherwise the next word of the head response, which
leaves the queue with its last word, whereupon the intake judges its condition again (R189): with fewer than 2 free places, or no record
in either list, it takes nothing; otherwise it takes the head of the preferred queue's list, or of the other's where that is empty, the
preference then names the other queue, the command is judged as at a ready intake, and the condition is judged again. What a read returns
stands in the model's bus word (log 4). -/
def Obligations.ResponseQueueRead : Prop :=
  ∀ s : State,
    (s.link.responses = [] → exec .responseQueueRead s = .next { s with link := { s.link with busOut := 0 } })
    ∧ (∀ r rest, s.link.responses = r :: rest → s.link.wordsRead + 1 < r.length →
        exec .responseQueueRead s
          = .next { s with link := { s.link with busOut := r.getD s.link.wordsRead 0, wordsRead := s.link.wordsRead + 1 } })
    ∧ (∀ r rest, s.link.responses = r :: rest → s.link.wordsRead + 1 = r.length →
        exec .responseQueueRead s
          = .next ({ s with link := { s.link with busOut := r.getD s.link.wordsRead 0, responses := rest, wordsRead := 0 } }).intake)
    ∧ (s.link.freePlaces < 2 ∨ (s.link.console.records = [] ∧ s.link.transfer.records = []) → s.intake = s)
    ∧ (∀ (q : Queue) (r : Record) (rest : List Record) (u : State), 2 ≤ s.link.freePlaces → (s.link.lane q).records = r :: rest →
        (q = s.link.preference ∨ (s.link.lane s.link.preference).records = []) →
        u = { s with link := s.link.setLane q ⟨(s.link.lane q).assembly, rest⟩ } →
        s.intake = ((u.taken q).judge ⟨q, r.tag, r.code, s.link.level q⟩ r.command).intake)
    ∧ (∀ (q : Queue) (tag : BitVec 8) (command : HostCommand), command.wellFormed = true →
        (command.record tag).command = command ∧ (command.record tag).tag = tag ∧ (command.record tag).code = command.code
        ∧ (s.Ready → exec (instrOf q tag command) s = .next ((s.taken q).judge ⟨q, tag, command.code, s.link.level q⟩ command)))

/-- A read of the data port (R162 to R164, R207): the next word of an export; the last word ends it, unpins the entry and
writes the closing record. Any other read is a misuse that returns 0 and changes nothing else. What a read returns stands in the
model's bus word (log 4). -/
def Obligations.DataPortRead : Prop :=
  ∀ s : State,
    (∀ t, s.transfer = some t → t.direction = .outbound →
      (t.moved + 1 < t.total →
        exec .dataPortRead s
          = .next { s with link := { s.link with busOut := s.exportWord t t.moved }, transfer := some { t with moved := t.moved + 1 } })
      ∧ (t.moved + 1 = t.total →
        exec .dataPortRead s
          = .next { s with
              link := { s.link with busOut := s.exportWord t t.moved }
              entries := s.entries.map fun e => if e.key == t.key then { e with pinned := false } else e
              transfer := none
              closing := some ⟨.outbound, t.key, t.queue, t.tag, t.total, t.total, .completed⟩ })
      ∧ (∀ i < sectorLength t.size / 4,
          s.exportWord t i = s.memory.read (1024 * t.frame + 4 * i) ++ s.memory.read (1024 * t.frame + 4 * i + 1)
            ++ s.memory.read (1024 * t.frame + 4 * i + 2) ++ s.memory.read (1024 * t.frame + 4 * i + 3))
      ∧ (t.kind = .cartridge → s.exportWord t (sectorLength t.size / 4) = t.check)
      ∧ (t.kind = .floppy → s.exportWord t (sectorLength t.size / 4) = t.check.extractLsb' 0 16 ++ 0#16))
    ∧ ((s.transfer = none ∨ ∃ t, s.transfer = some t ∧ t.direction = .inbound) →
        exec .dataPortRead s = .next { s with link := { s.link with portMisuse := true, busOut := 0 } })

/-- A write of the data port before the last word (R162, R166, R207): its four bytes are stored at the next four bytes of the
inbound frame, every other byte of the buffer reads as before, and nothing else changes but the words moved. Any write with no
inbound transfer is a misuse that sets the flag and changes nothing else. -/
def Obligations.DataPortWrite : Prop :=
  ∀ (s : State) (w : Word),
    (∀ t, s.transfer = some t → t.direction = .inbound → t.moved + 1 < t.total → t.total ≤ 256 →
      ∃ m, exec (.dataPortWrite w) s = .next { s with memory := m, transfer := some { t with moved := t.moved + 1 } }
        ∧ m.read (1024 * t.frame + 4 * t.moved) = w.extractLsb' 24 8
        ∧ m.read (1024 * t.frame + 4 * t.moved + 1) = w.extractLsb' 16 8
        ∧ m.read (1024 * t.frame + 4 * t.moved + 2) = w.extractLsb' 8 8
        ∧ m.read (1024 * t.frame + 4 * t.moved + 3) = w.extractLsb' 0 8
        ∧ ∀ a, ¬(1024 * t.frame + 4 * t.moved ≤ a ∧ a < 1024 * t.frame + 4 * t.moved + 4) → m.read a = s.memory.read a)
    ∧ ((s.transfer = none ∨ ∃ t, s.transfer = some t ∧ t.direction = .outbound) →
        exec (.dataPortWrite w) s = .next { s with link := { s.link with portMisuse := true } })

/-- The last word of an inbound transfer (R166, R180, R181): `u` is the state with that word stored. The transfer ends, its
closing record is written, and by what the table then holds: no entry, the frame returns to the pool; an entry of another
size code or check width, the same; an identical candidate, it becomes best and the frame returns; fewer than 4 candidates, the
host's version joins at the end as a HOST candidate; 4 candidates, it replaces the weakest bad one, or, with none bad, the weakest
(R128, R181). In the last three the entry is AMENDED with amend source HOST DATA. A store into a frame changes the bytes it names within the
frame and no other. A frame returned goes to the front of the pool (log 9). Stated for a table in strict key order. -/
def Obligations.InboundCompletes : Prop :=
  (∀ (frame : Nat) (check : Word) (clean : Bool),
      hostCandidate frame check clean = { frame := frame, check := check, clean := clean, origin := .host, agree := 0, firstPass := 0
                                          uncertain := [], moreUncertain := false })
  ∧ (∀ (s : State) (handle : Nat) (m : Medium), s.medium handle = some m → s.kindOf handle = m.kind)
  ∧ (∀ w : Word, bytesOfWord w = [w.extractLsb' 24 8, w.extractLsb' 16 8, w.extractLsb' 8 8, w.extractLsb' 0 8])
  ∧ (∀ (s : State) (frame offset : Nat) (bytes : List Byte), ∃ m, s.writeFrame frame offset bytes = { s with memory := m }
      ∧ (∀ i b, bytes[i]? = some b → offset + i < 1024 → m.read (1024 * frame + offset + i) = b)
      ∧ ∀ a, ¬(1024 * frame + offset ≤ a ∧ a < 1024 * frame + min (offset + bytes.length) 1024) → m.read a = s.memory.read a)
  ∧ (∀ (e : Entry) (k : Nat),
      ((∃ c ∈ e.candidates, c.clean = false) → (e.weakest = some k ↔ e.LowestAgree (fun c => c.clean = false) k))
      ∧ ((∀ c ∈ e.candidates, c.clean = true) → (e.weakest = some k ↔ e.LowestAgree (fun _ => True) k)))
  ∧ ∀ (s u : State) (t : Transfer) (w : Word), s.TableSound → s.transfer = some t → t.direction = .inbound → t.moved + 1 = t.total →
    u = s.writeFrame t.frame (4 * t.moved) (bytesOfWord w) →
    (s.entry t.key = none →
      exec (.dataPortWrite w) s
        = .next { u with pool := t.frame :: s.pool, transfer := none
                         closing := some ⟨.inbound, t.key, t.queue, t.tag, t.total, t.total, .noEntry⟩ })
    ∧ (∀ e, s.entry t.key = some e → (e.size ≠ t.size ∨ checkLength (s.kindOf t.key.handle) ≠ checkLength t.kind) →
        exec (.dataPortWrite w) s
          = .next { u with pool := t.frame :: s.pool, transfer := none
                           closing := some ⟨.inbound, t.key, t.queue, t.tag, t.total, t.total, .stale⟩ })
    ∧ (∀ e, s.entry t.key = some e → e.size = t.size → s.kindOf t.key.handle = t.kind →
        (∀ k, u.identical e (u.frameData t.frame t.size) t.check = some k →
          exec (.dataPortWrite w) s
            = .next { u with
                pool := t.frame :: s.pool
                entries := s.entries.map fun x => if x.key == e.key then x.amend k .hostData else x
                transfer := none
                closing := some ⟨.inbound, t.key, t.queue, t.tag, t.total, t.total, .identical k⟩ })
        ∧ (∀ c, u.identical e (u.frameData t.frame t.size) t.check = none →
            c = hostCandidate t.frame t.check (dataCheck t.kind (u.frameData t.frame t.size) == t.check) →
            (e.candidates.length < 4 →
              exec (.dataPortWrite w) s
                = .next { u with
                    entries := s.entries.map fun x => if x.key == e.key then (x.join c).amend e.candidates.length .hostData else x
                    transfer := none
                    closing := some ⟨.inbound, t.key, t.queue, t.tag, t.total, t.total, .joined e.candidates.length⟩ })
            ∧ (∀ k left, e.candidates.length = 4 → e.weakest = some k → e.candidates[k]? = some left →
                exec (.dataPortWrite w) s
                  = .next { u with
                      pool := left.frame :: s.pool
                      entries := s.entries.map fun x => if x.key == e.key then (x.replace k c).amend 3 .hostData else x
                      transfer := none
                      closing := some ⟨.inbound, t.key, t.queue, t.tag, t.total, t.total, .replaced k 3⟩ })))

/-! ## What the intake refuses -/

/-- The layout of a response record, of the first word of a refusal's body and of a number in a word of its own, and the numbers of the
answer and refusal codes (R204, 11.6). What the intake refuses of itself (R190, R203), and nothing else changes: a record whose code names
no command, with UNKNOWN_COMMAND, whichever queue it came from; a field with a number for which R203 gives no meaning, with MALFORMED,
which names no handle, for MOUNT too by the model's choice (log 45); and a console-only command from the transfer queue, with LEVEL. -/
def Obligations.IntakeRefusals : Prop :=
  ((∀ (kind : ResponseKind) (q : Queue) (tag command : BitVec 8) (code : Nat) (body : List Word),
      ∃ header, responseRecord kind q tag code command body = header :: (if body = [] then [0] else body)
        ∧ laidOut header
            [(31, 30, [ResponseKind.answer, .refusal, .notice].idxOf kind), (29, 29, [Queue.console, .transfer].idxOf q),
             (28, 24, if body = [] then 2 else body.length + 1), (23, 16, tag.toNat), (15, 8, code), (7, 0, command.toNat)])
    ∧ (∀ command : BitVec 8, laidOut (refusalWord none command) [(31, 31, 0), (30, 30, 0), (29, 24, 63), (23, 8, 0), (7, 0, command.toNat)]
        ∧ ∀ h, laidOut (refusalWord (some h) command) [(31, 31, 1), (30, 30, 0), (29, 24, h), (23, 8, 0), (7, 0, command.toNat)])
    ∧ (∀ n, laidOut (numberWord n) [(31, 0, n)] ∧ optionWord (some n) = numberWord n) ∧ laidOut absentWord [(31, 0, 4294967295)]
    ∧ optionWord none = absentWord
    ∧ [AnswerCode.done, .accepted, .nothing, .holdIgnored, .synthFailed].map AnswerCode.number = List.range 5
    ∧ [RefusalCode.nullHandle, .handleRange, .notDefined, .level, .viewChain, .bandRange, .notPresent, .handleInUse, .badGeometry,
        .kindMismatch, .notReady, .presentConflict, .notMedium, .inUse, .badProfile, .badParameter, .driveBusy, .driveFaulted,
        .driveOffline, .notCartridge, .jobsFull, .bandActive, .tableFull, .noSuchJob, .tooLate, .noEntry, .noBest, .noCandidate,
        .portBusy, .pinned, .state, .noFrame, .tooFew, .synthBusy, .abandoned, .noTransfer, .malformed, .unknownCommand].map
          RefusalCode.number = List.range' 1 38)
  ∧ ∀ (s : State) (q : Queue) (tag : BitVec 8), s.Ready →
    (∀ code : BitVec 8, namesCommand code = false →
      exec (.unknownCommand q tag code) s = .next (s.answered q (refusalOf q tag code .unknownCommand [])))
    ∧
    (∀ c : HostCommand,
      ((∃ port, 3 < port.toNat ∧ ((∃ f, c = .driveConfig port f) ∨ c = .park port ∨ c = .retension port ∨ c = .driveReset port))
        ∨ (∃ port f, c = .driveConfig port f ∧ f.kind = 3)
        ∨ (∃ h g m, c = .mount h g m ∧ (3 < m.drive.toNat ∨ 3 < m.level.toNat ∨ m.kind = 0 ∨ m.kind = 3))
        ∨ (∃ h f, c = .defineView h f ∧ (f.limit = 0 ∨ 1024 < f.limit.toNat ∨ 3 < f.level.toNat))
        ∨ (∃ slot, 11 < slot.toNat ∧ ((∃ m a, c = .setProfile slot m a) ∨ c = .clearProfile slot ∨ c = .readProfile slot))
        ∨ (∃ k v, 2 < v.toNat ∧ (c = .lookup k v ∨ ∃ states, c = .find k v states))
        ∨ (∃ k v states, c = .find k v states ∧ states.extractLsb' 10 22 ≠ 0)
        ∨ (∃ k n, c = .fetch k n ∧ 4 < n.toNat) ∨ (∃ k n, c = .choose k n ∧ 3 < n.toNat)
        ∨ (∃ scope, 1 < scope.toNat ∧ ((∃ b, c = .retireBand b scope) ∨ ∃ h, c = .retireVolume h scope))
        ∨ (∃ level, c = .setTransferLevel level ∧ 3 < level.toNat)
        ∨ (∃ part n, c = .status part n ∧ (5 < part.toNat ∨ (part = 1 ∧ 3 < n.toNat)))) →
      exec (instrOf q tag c) s = .next (s.answered q (refusalOf q tag c.code .malformed [])))
    ∧ (∀ c : HostCommand, malformed c = false →
        ((∃ port f, c = .driveConfig port f) ∨ (∃ port, c = .driveReset port) ∨ (∃ slot m a, c = .setProfile slot m a)
          ∨ (∃ slot, c = .clearProfile slot) ∨ (∃ a, c = .setDefaults a) ∨ (∃ level, c = .setTransferLevel level) ∨ c = .restart) →
        exec (instrOf .transfer tag c) s = .next (s.answered .transfer (refusalOf .transfer tag c.code .level [])))

/-! ## Drive commands -/

/-- DRIVE CONFIG (R3): its refusals in their order, and the port it leaves when it is accepted. A kind NONE leaves the port
OFFLINE with nothing sensed. Another kind than before clears the pass count and the head cylinder, and the same kind keeps them but
for the new interval's limit. In both, an IDLE port inquires of its drive (R6), with ready no from the inquiry on (log 5). -/
def Obligations.DriveConfigSetsPort : Prop :=
  ∀ (s : State) (tag port : BitVec 8) (p : Fin 4) (f : ConfigField) (kind : PortKind), s.Ready → port.toNat = p.val → f.kind ≠ 3 →
    kind = kindOfNumber f.kind.toNat →
    ((s.port p).state = .faulted →
      s.Refuses (.driveConfig .console tag port f) .console tag 1 .driveFaulted [numberWord (faultNumber (s.port p).fault)])
    ∧ (((s.port p).state ≠ .faulted ∧ (s.port p).state ≠ .offline ∧ (s.port p).state ≠ .idle)
          ∨ ((s.port p).state ≠ .faulted ∧ ∃ j ∈ s.jobs, j.drive = p) →
        s.Refuses (.driveConfig .console tag port f) .console tag 1 .driveBusy [])
    ∧ ((s.port p).state = .offline ∨ (s.port p).state = .idle → (∀ j ∈ s.jobs, j.drive ≠ p) →
        (kind ≠ (s.port p).kind → (∃ h ∈ handles, ∃ m, s.medium h = some m ∧ m.drive = p) →
          s.Refuses (.driveConfig .console tag port f) .console tag 1 .inUse [])
        ∧ (kind = (s.port p).kind ∨ (∀ h ∈ handles, ∀ m, s.medium h = some m → m.drive ≠ p) →
            (¬((1 ≤ f.settle.toNat ∧ f.settle.toNat ≤ 60) ∧ (100 ≤ f.index.toNat ∧ f.index.toNat ≤ 2000)
                ∧ (500 ≤ f.mark.toNat ∧ f.mark.toNat ≤ 8000) ∧ (4 ≤ f.interval.toNat ∧ f.interval.toNat ≤ 64)) →
              s.Refuses (.driveConfig .console tag port f) .console tag 1 .badParameter [])
            ∧ ((1 ≤ f.settle.toNat ∧ f.settle.toNat ≤ 60) → (100 ≤ f.index.toNat ∧ f.index.toNat ≤ 2000) →
                (500 ≤ f.mark.toNat ∧ f.mark.toNat ≤ 8000) → (4 ≤ f.interval.toNat ∧ f.interval.toNat ≤ 64) →
                ∀ configured : Port,
                  configured = { s.port p with kind := kind, settleTime := f.settle.toNat, indexTimeout := f.index.toNat
                                               markTimeout := f.mark.toNat, retensionInterval := f.interval.toNat
                                               autoRetension := f.auto, ready := false } →
                  (kind = .noDrive →
                    exec (.driveConfig .console tag port f) s
                      = .next (({ s with ports := s.ports.set p { configured with state := .offline, headCylinder := none, passCount := 0 } } :
                            State).answered .console (answerOf .console tag 1 .done [0])))
                  ∧ (kind ≠ .noDrive → kind ≠ (s.port p).kind →
                      exec (.driveConfig .console tag port f) s
                        = .next (({ s with ports := s.ports.set p { configured with
                                      state := .idle, headCylinder := none, passCount := 0
                                      requests := (s.port p).requests ++ [.statusInquiry] } } :
                              State).answered .console (answerOf .console tag 1 .done [1])))
                  ∧ (kind ≠ .noDrive → kind = (s.port p).kind →
                      exec (.driveConfig .console tag port f) s
                        = .next (({ s with ports := s.ports.set p { configured with
                                      state := .idle, passCount := min (s.port p).passCount f.interval.toNat
                                      requests := (s.port p).requests ++ [.statusInquiry] } } :
                              State).answered .console (answerOf .console tag 1 .done [1]))))))

/-- PARK and RETENSION (R4, R18, R21, R23, R24): their refusals in their order, and the port each leaves when it is accepted.
That a floppy port's motor is turned on for a park from IDLE and that its steps count in a known head cylinder are the model's
choices (logs 6 and 7). -/
def Obligations.ParkAndRetension : Prop :=
  ∀ (s : State) (q : Queue) (tag port : BitVec 8) (p : Fin 4), s.Ready → port.toNat = p.val →
    (∀ i code, (i = Instr.park q tag port ∧ code = 2#8) ∨ (i = Instr.retension q tag port ∧ code = 3#8) →
      ((s.port p).state = .offline → s.Refuses i q tag code .driveOffline [])
      ∧ ((s.port p).state = .faulted →
          s.Refuses i q tag code .driveFaulted [numberWord (faultNumber (s.port p).fault)]))
    ∧ ((s.port p).state ∈ [.positioning, .streaming, .parking, .retensioning]
          ∨ ((s.port p).state ∈ [.idle, .onBand] ∧ ∃ j ∈ s.jobs, j.drive = p ∧ j.state ≠ .queued) →
        s.Refuses (.park q tag port) q tag 2 .driveBusy [])
    ∧ ((s.port p).state ∈ [.idle, .onBand] → (∀ j ∈ s.jobs, j.drive = p → j.state = .queued) →
        ∀ parked : Port,
          parked = { s.port p with state := .parking, band := none, atStart := false, overtimeTimer := some 10000, motion := .still } →
          ((s.port p).kind = .cartridge →
            exec (.park q tag port) s
              = .next (({ s with ports := s.ports.set p { parked with requests := (s.port p).requests ++ [.rewind] } } :
                    State).answered q (answerOf q tag 2 .accepted [])))
          ∧ ((s.port p).kind = .floppy →
              exec (.park q tag port) s
                = .next (({ s with ports := s.ports.set p { parked with
                              motor := true, spinUp := (s.port p).spinUp || !(s.port p).motor
                              headCylinder := (s.port p).headCylinder.map (· - 1)
                              settleTimer := some (s.port p).settleTime, stepTimer := some 3, stepped := true
                              requests := (s.port p).requests ++ (if (s.port p).motor then [] else [.motorOn]) ++ [.stepOut] } } :
                      State).answered q (answerOf q tag 2 .accepted []))))
    ∧ ((s.port p).state ∉ [.offline, .faulted] →
        ((s.port p).kind ≠ .cartridge →
          s.Refuses (.retension q tag port) q tag 3 .notCartridge [])
        ∧ ((s.port p).kind = .cartridge →
            ((s.port p).state ∉ [.idle, .onBand] →
              s.Refuses (.retension q tag port) q tag 3 .driveBusy [])
            ∧ (∀ j, s.activeJob p = some j → j.state ≠ .retensionWait →
                s.Refuses (.retension q tag port) q tag 3 .driveBusy [])
            ∧ ((s.port p).state ∈ [.idle, .onBand] → (∀ j ∈ s.jobs, j.drive = p → j.state = .queued ∨ j.state = .retensionWait) →
                ((s.port p).ready = false →
                  s.Refuses (.retension q tag port) q tag 3 .notReady [])
                ∧ ((s.port p).ready = true →
                    exec (.retension q tag port) s
                      = .next (({ s with ports := s.ports.set p { s.port p with
                                    state := .retensioning, band := none, atStart := false, retensionWatchdog := some 240000
                                    requests := (s.port p).requests ++ [.windEndToEnd] } } :
                            State).answered q (answerOf q tag 3 .accepted []))))))

/-- The layout of a completion notice, and the entries its counts are taken over (R91, R206). DRIVE RESET (R4, R26, R87, R194): refused
while RETENSIONING, answered with nothing done on an OFFLINE port. On any other port the work is broken off, and the port is IDLE, with
ready no at the inquiry until the drive answers (log 5). Its queued jobs end CANCELLED with reason DRIVE_RESET and post their notices in
opening order. An active job is stopped in its place among them: a channel it holds is given up (R89, R96; logs 23 and 35), a stream is
cut off uncounted, its sector in receipt discarded (R70, R110), and the notice waits for its drain (log 20); a close goes on (R81); any
other leaves at once, with the ending decided first. When it has left, the port is parked as that ending has it (R65; logs 6, 7 and 36).
The bit of a yes is log 40. Then the answer posts, with the number of jobs whose ending it decided and the fault cause held before. -/
def Obligations.DriveResetEndsWork : Prop :=
  (∀ (j : Job) (e : Ending) (band : List Entry) (outcome : Nat) (count : EntryState → Nat),
      (outcome = match e with | .done => 0 | .failed _ => 1 | .cancelled _ => 2) → (∀ st, count st = band.countP fun x => x.state == st) →
      ∃ w1 w3 w4 w5 w6 w7 w8,
        j.notice e band = responseRecord .notice j.queue j.tag outcome 24 [w1, keyWord j.handle j.cylinder j.head 0, w3, w4, w5, w6, w7, w8]
        ∧ laidOut w1
            [(31, 24, j.id), (23, 22, outcome),
             (21, 18, [Ending.done, .failed .notPresent, .failed .wrongBand, .failed .noIndex, .failed .noMark, .failed .mediaGone,
                       .failed .positionFault, .failed .retensionFault, .cancelled .host, .cancelled .driveReset,
                       .cancelled .restart].idxOf e),
             (17, 14, j.passesRun), (13, 13, j.holdBroken.toNat), (12, 10, j.tolerance), (9, 4, j.viaHandle.getD 63), (3, 0, 0)]
        ∧ laidOut w3
            [(31, 26, count .settled), (25, 20, count .synthesized), (19, 14, count .tentative), (13, 8, count .disputed),
             (7, 2, count .exhausted), (1, 0, 0)]
        ∧ laidOut w4 [(31, 26, count .missing), (25, 20, j.skipped), (19, 12, j.faults), (11, 0, 0)]
        ∧ laidOut w5 [(31, 16, j.readingsTaken), (15, 0, j.readingsDropped)]
        ∧ laidOut w6 [(31, 16, j.overrun), (15, 0, j.strayHeaders)]
        ∧ laidOut w7 [(31, 16, j.foreignHeaders), (15, 0, j.headerFailures)]
        ∧ laidOut w8 [(31, 16, j.sizeMismatches), (15, 0, 0)])
  ∧ (∀ (s : State) (j : Job) (m : Medium), s.medium j.handle = some m →
      s.bandEntries j = s.entries.filter fun e => decide (e.key.OfBand j ∧ m.geometry.firstId ≤ e.key.sector
        ∧ e.key.sector < m.geometry.firstId + m.geometry.sectors))
  ∧ (∀ (s : State) (p : Fin 4), s.portJobs p = s.jobs.filter fun j => decide (j.drive = p))
  ∧ ∀ (s : State) (tag port : BitVec 8) (p : Fin 4), s.Ready → port.toNat = p.val →
    ((s.port p).state = .retensioning →
      s.Refuses (.driveReset .console tag port) .console tag 4 .driveBusy [])
    ∧ ((s.port p).state = .offline →
        exec (.driveReset .console tag port) s = .next (s.answered .console (answerOf .console tag 4 .done [0, 0])))
    ∧ ((s.port p).state ∉ [.retensioning, .offline] → s.JobsSound →
        (∀ j ∈ s.jobs, j.drive = p → j.state = .queued ∧ j.ending = none ∧ j.id ∉ s.waits ∧ s.channelOf j.id = none) →
        exec (.driveReset .console tag port) s
          = .next { s with
              ports := s.ports.set p (s.port p).resetDone
              jobs := s.jobs.filter fun j => j.drive != p
              link := { s.link with
                preference := .transfer
                reserved := s.link.reserved - (s.portJobs p).length
                responses := s.link.responses
                  ++ (s.portJobs p).map (fun j => (j.decide (.cancelled .driveReset)).notice (.cancelled .driveReset) (s.bandEntries j))
                  ++ [answerOf .console tag 4 .done
                        [numberWord (s.portJobs p).length, numberWord (faultNumber (s.port p).fault)]] } })
    ∧ (∀ (j : Job) (before after : List Job) (e : Ending) (u : State), (s.port p).state ∉ [.retensioning, .offline] → s.JobsSound →
        s.portJobs p = before ++ j :: after → j.state ≠ .queued → e = .cancelled .driveReset →
        (∀ x ∈ before ++ after, x.state = .queued ∧ x.id ∉ s.waits ∧ s.channelOf x.id = none) →
        u = ({ s.taken .console with ports := s.ports.set p (s.port p).resetDone } : State).allLeft before e →
        ∃ t v w, exec (.driveReset .console tag port) s
            = .next { t with link := { t.link with
                reserved := t.link.reserved - 1
                responses := t.link.responses ++ [answerOf .console tag 4 .done
                  [numberWord (s.jobs.countP fun x => decide (x.drive = p ∧ x.ending = none)), numberWord (faultNumber (s.port p).fault)]] } }
          ∧ u.Stops v j e ∧ w = v.allLeft after e
          ∧ (u.LeavesAtOnce j → w.Continues t (j.decide e) (j.ending.getD e))
          ∧ (¬u.LeavesAtOnce j → t = w))

/-! ## The volume table -/

/-- The fields of a geometry in the order of R36's table, each with its range for the kind: the first that lies outside is the one a MOUNT
is refused for, and a geometry with none outside is valid. The numbers of kinds, encodings and data rates are those of R203. -/
def Obligations.GeometryLimits : Prop :=
  (kindOfNumber 0 = .noDrive ∧ kindOfNumber 1 = .floppy ∧ kindOfNumber 2 = .cartridge)
  ∧ (encodingOf 0 = some .fm ∧ encodingOf 1 = some .mfm ∧ encodingOf 2 = some .fixed ∧ encodingOf 3 = none)
  ∧ (rateOf 0 = .k250 ∧ rateOf 1 = .k300 ∧ rateOf 2 = .k500 ∧ rateOf 3 = .fixed)
  ∧ ∀ (kind : PortKind) (g : GeometryWord) (m : MediumField), kind ≠ .noDrive →
    ∀ (ranges : List (GeometryField × Prop)),
      ranges =
        [(.cylinders, 1 ≤ g.cylinders.toNat ∧ g.cylinders.toNat ≤ match kind with | .floppy => 100 | _ => 1024),
         (.heads, 1 ≤ g.heads.toNat ∧ g.heads.toNat ≤ match kind with | .floppy => 2 | _ => 48),
         (.sectorsPerBand, 1 ≤ g.sectors.toNat ∧ g.sectors.toNat ≤ 32),
         (.firstSectorId, g.sectors.toNat = 0 ∨ g.firstId.toNat + g.sectors.toNat - 1 ≤ 255),
         (.sizeCode, kind = .floppy ∨ m.size = 2),
         (.encoding, encodingOf m.encoding.toNat ∈ match kind with | .floppy => [some Encoding.fm, some Encoding.mfm] | _ => [some Encoding.fixed]),
         (.dataRate, rateOf m.rate.toNat ∈ match kind with | .floppy => [DataRate.k250, DataRate.k300, DataRate.k500] | _ => [DataRate.fixed])] →
      (badGeometryField kind g m = none ↔ ∀ r ∈ ranges, r.2)
        ∧ ∀ f, badGeometryField kind g m = some f ↔ ∃ i, ∃ bad, ranges[i]? = some (f, bad) ∧ ¬bad ∧ ∀ r ∈ ranges.take i, r.2

/-- An accepted MOUNT (R37, R38) makes its entry a MEDIUM entry with the fields given and sets its present flag by the port and
the table as they stand: another present entry of the drive first, then the ready flag. The words of the answer that have nothing
to carry are the model's absent words (log 12), and the number of its present flag is log 40. -/
def Obligations.MountDefinesMedium : Prop :=
  ∀ (s : State) (q : Queue) (tag : BitVec 8) (handle : BitVec 6) (g : GeometryWord) (m : MediumField) (p : Fin 4) (medium : Medium),
    s.Ready → m.drive.toNat = p.val → m.level.toNat ≤ 3 → (m.kind = 1 ∨ m.kind = 2) →
    handle ≠ 0 → handle.toNat < 32 → s.volume handle.toNat = .unused → s.link.level q ≤ m.level.toNat →
    badGeometryField (kindOfNumber m.kind.toNat) g m = none →
    (s.port p).state ≠ .offline → (s.port p).kind = kindOfNumber m.kind.toNat →
    medium = { drive := p, kind := kindOfNumber m.kind.toNat, cls := m.cls.toNat, level := m.level.toNat, present := false
               geometry := { cylinders := g.cylinders.toNat, heads := g.heads.toNat, sectors := g.sectors.toNat, firstId := g.firstId.toNat
                             sizeCode := m.size.toNat, encoding := (encodingOf m.encoding.toNat).getD .fixed, rate := rateOf m.rate.toNat } } →
    (∀ other, s.presentHandle p = some other →
      exec (.mount q tag handle g m) s
        = .next ((s.setVolume handle.toNat (.medium medium)).answered q
            (answerOf q tag 8 .done [0, numberWord RefusalCode.presentConflict.number, numberWord other])))
    ∧ ((∀ h ∈ handles, s.presentOn p h = false) →
        ((s.port p).ready = false →
          exec (.mount q tag handle g m) s
            = .next ((s.setVolume handle.toNat (.medium medium)).answered q
                (answerOf q tag 8 .done [0, numberWord RefusalCode.notReady.number, absentWord])))
        ∧ ((s.port p).ready = true →
            exec (.mount q tag handle g m) s
              = .next ((s.setVolume handle.toNat (.medium { medium with present := true })).answered q
                  (answerOf q tag 8 .done [1, absentWord, absentWord]))))

/-- The refusals of MOUNT after MALFORMED, in their order (R37); each names the handle being defined and changes nothing. The words that
name the kind of the entry in use and the field of a bad geometry are free values of the model (log 11). -/
def Obligations.MountRefusals : Prop :=
  ∀ (s : State) (q : Queue) (tag : BitVec 8) (handle : BitVec 6) (g : GeometryWord) (m : MediumField) (p : Fin 4),
    s.Ready → m.drive.toNat = p.val → m.level.toNat ≤ 3 → (m.kind = 1 ∨ m.kind = 2) →
    (handle = 0 → s.RefusesNaming (.mount q tag handle g m) q tag 8 .nullHandle handle.toNat [])
    ∧ (32 ≤ handle.toNat → s.RefusesNaming (.mount q tag handle g m) q tag 8 .handleRange handle.toNat [])
    ∧ (handle ≠ 0 → handle.toNat < 32 →
        (s.volume handle.toNat ≠ .unused → s.RefusesNaming (.mount q tag handle g m) q tag 8 .handleInUse handle.toNat [Config.entryKindWord (s.volume handle.toNat).kind])
        ∧ (s.volume handle.toNat = .unused →
            (m.level.toNat < s.link.level q → s.RefusesNaming (.mount q tag handle g m) q tag 8 .level handle.toNat [])
            ∧ (s.link.level q ≤ m.level.toNat →
                (∀ f, badGeometryField (kindOfNumber m.kind.toNat) g m = some f → s.RefusesNaming (.mount q tag handle g m) q tag 8 .badGeometry handle.toNat [Config.geometryFieldWord f])
                ∧ (badGeometryField (kindOfNumber m.kind.toNat) g m = none →
                    (s.port p).state = .offline ∨ (s.port p).kind ≠ kindOfNumber m.kind.toNat →
                    s.RefusesNaming (.mount q tag handle g m) q tag 8 .kindMismatch handle.toNat [numberWord (s.port p).kind.number, numberWord (s.port p).state.number]))))

/-- ALIAS (R39): the refusals after MALFORMED, in their order, with the handle each names, and the entry it defines. -/
def Obligations.AliasDefinesView : Prop :=
  ∀ (s : State) (q : Queue) (tag : BitVec 8) (handle : BitVec 6) (f : ViewField),
    s.Ready → f.limit ≠ 0 → f.limit.toNat ≤ 1024 → f.level.toNat ≤ 3 →
    (handle = 0 → s.RefusesNaming (.defineView q tag handle f) q tag 9 .nullHandle 0 [])
    ∧ (32 ≤ handle.toNat → s.RefusesNaming (.defineView q tag handle f) q tag 9 .handleRange handle.toNat [])
    ∧ (handle ≠ 0 → handle.toNat < 32 →
        (s.volume handle.toNat ≠ .unused → s.RefusesNaming (.defineView q tag handle f) q tag 9 .handleInUse handle.toNat [])
        ∧ (s.volume handle.toNat = .unused →
            (f.level.toNat < s.link.level q → s.RefusesNaming (.defineView q tag handle f) q tag 9 .level handle.toNat [])
            ∧ (s.link.level q ≤ f.level.toNat →
                (∀ e, s.chainEntry (s.link.level q) f.target.toNat = .error e → s.RefusesNaming (.defineView q tag handle f) q tag 9 e.code e.handle [])
                ∧ (∀ v, s.chainEntry (s.link.level q) f.target.toNat = .ok (.view v) → s.RefusesNaming (.defineView q tag handle f) q tag 9 .viewChain f.target.toNat [])
                ∧ (∀ m, s.chainEntry (s.link.level q) f.target.toNat = .ok (.medium m) →
                    (m.geometry.cylinders < f.offset.toNat + f.limit.toNat → s.RefusesNaming (.defineView q tag handle f) q tag 9 .bandRange f.target.toNat [])
                    ∧ (f.offset.toNat + f.limit.toNat ≤ m.geometry.cylinders →
                        exec (.defineView q tag handle f) s
                          = .next ((s.setVolume handle.toNat (.view ⟨f.target.toNat, f.offset.toNat, f.limit.toNat, f.level.toNat⟩)).answered q
                              (answerOf q tag 9 .done [])))))))

/-- CONFIRM, UNMOUNT and DESCRIBE of an entry that passes the check chain (R40 to R43): their refusals in their order, and what each
changes: the present flag of the entry, the entry itself, nothing. DESCRIBE answers the fields and the counts of its table, one word each,
as R204 lays out, with no word for the entry's kind (log 38). A CONFIRM of an entry already present is answered DONE with nothing changed,
ready or not. The number of the present flag is log 40. -/
def Obligations.ConfirmUnmountDescribe : Prop :=
  (∀ (s : State) (h : Nat), s.viewsOf h = ((List.range 32).drop 1).countP fun v => match s.volume v with
      | .view a => a.target == h
      | .unused | .medium _ => false)
  ∧ ∀ (s : State) (q : Queue) (tag : BitVec 8) (handle : BitVec 6), s.Ready →
    (∀ v, s.chainEntry (s.link.level q) handle.toNat = .ok (.view v) →
      s.RefusesNaming (.confirm q tag handle) q tag 10 .notMedium handle.toNat []
      ∧ ((∃ j ∈ s.jobs, j.viaHandle = some handle.toNat) →
          s.RefusesNaming (.unmount q tag handle) q tag 11 .inUse handle.toNat [numberWord (s.jobs.countP fun j => j.viaHandle == some handle.toNat)])
      ∧ ((∀ j ∈ s.jobs, j.viaHandle ≠ some handle.toNat) →
          exec (.unmount q tag handle) s = .next ((s.setVolume handle.toNat .unused).answered q (answerOf q tag 11 .done []))))
    ∧ (∀ m, s.chainEntry (s.link.level q) handle.toNat = .ok (.medium m) →
        (∀ other, s.presentHandle m.drive = some other → other ≠ handle.toNat →
          s.RefusesNaming (.confirm q tag handle) q tag 10 .presentConflict handle.toNat [numberWord other])
        ∧ (s.presentHandle m.drive = some handle.toNat →
            exec (.confirm q tag handle) s = .next (s.answered q (answerOf q tag 10 .done [])))
        ∧ (s.presentHandle m.drive = none →
            ((s.port m.drive).ready = false →
              s.RefusesNaming (.confirm q tag handle) q tag 10 .notReady handle.toNat [])
            ∧ ((s.port m.drive).ready = true →
                exec (.confirm q tag handle) s
                  = .next ((s.setVolume handle.toNat (.medium { m with present := true })).answered q (answerOf q tag 10 .done []))))
        ∧ (∀ entries jobs views, entries = s.entries.countP (fun e => e.key.handle == handle.toNat) →
            jobs = s.jobs.countP (fun j => j.handle == handle.toNat) → views = s.viewsOf handle.toNat →
            (0 < entries ∨ 0 < jobs ∨ 0 < views →
              s.RefusesNaming (.unmount q tag handle) q tag 11 .inUse handle.toNat [numberWord entries, numberWord jobs, numberWord views])
            ∧ (entries = 0 → jobs = 0 → views = 0 →
                exec (.unmount q tag handle) s = .next ((s.setVolume handle.toNat .unused).answered q (answerOf q tag 11 .done [])))))
    ∧ (∀ m, s.chainEntry (s.link.level q) handle.toNat = .ok (.medium m) →
      exec (.describe q tag handle) s
        = .next (s.answered q (answerOf q tag 12 .done
            [numberWord m.drive.val, numberWord m.kind.number, numberWord m.geometry.cylinders, numberWord m.geometry.heads,
             numberWord m.geometry.sectors, numberWord m.geometry.firstId, numberWord m.geometry.sizeCode,
             numberWord m.geometry.encoding.number, numberWord m.geometry.rate.number, numberWord m.cls, numberWord m.level,
             if m.present then 1 else 0, numberWord (s.entries.countP fun e => e.key.handle == handle.toNat),
             numberWord (s.jobs.countP fun j => j.handle == handle.toNat), numberWord (s.viewsOf handle.toNat)])))
    ∧ (∀ v, s.chainEntry (s.link.level q) handle.toNat = .ok (.view v) →
        exec (.describe q tag handle) s
          = .next (s.answered q (answerOf q tag 12 .done
              [numberWord v.target, numberWord v.offset, numberWord v.limit, numberWord v.level,
               numberWord (s.jobs.countP fun j => j.viaHandle == some handle.toNat)])))

/-- The seven steps of the check chain in their order (R31 to R33): what refuses an address, with the handle named, and what it
resolves to. Steps 1 to 4 act on the named handle, step 5 on an ALIAS's target, steps 6 and 7 on the MEDIUM entry. By R34 an entry
runs steps 1 to 4; a volume 1 to 5, with no cylinder to compare; a band or a key 1 to 6; and READ BAND all seven. The first that fails
ends the chain. -/
def Obligations.CheckChainSteps : Prop :=
  ∀ (s : State) (level handle cylinder head sector : Nat),
    (handle = 0 → s.chainEntry level handle = .error ⟨.nullHandle, handle⟩)
    ∧ (32 ≤ handle → s.chainEntry level handle = .error ⟨.handleRange, handle⟩)
    ∧ (0 < handle → handle < 32 →
        (s.volume handle = .unused → s.chainEntry level handle = .error ⟨.notDefined, handle⟩)
        ∧ (s.volume handle ≠ .unused → (s.volume handle).level < level → s.chainEntry level handle = .error ⟨.level, handle⟩)
        ∧ (s.volume handle ≠ .unused → level ≤ (s.volume handle).level → s.chainEntry level handle = .ok (s.volume handle)))
    ∧ (∀ v named, s.chainEntry level handle = .ok (.view v) →
        (v.target = 0 → s.chainResolve level handle cylinder head sector named = .error ⟨.nullHandle, v.target⟩)
        ∧ (32 ≤ v.target → s.chainResolve level handle cylinder head sector named = .error ⟨.handleRange, v.target⟩)
        ∧ (0 < v.target → v.target < 32 → s.medium v.target = none →
            s.chainResolve level handle cylinder head sector named = .error ⟨.viewChain, v.target⟩)
        ∧ (∀ m, 0 < v.target → v.target < 32 → s.medium v.target = some m →
            (m.level < level → s.chainResolve level handle cylinder head sector named = .error ⟨.level, v.target⟩)
            ∧ (level ≤ m.level → named = true → v.limit ≤ cylinder →
                s.chainResolve level handle cylinder head sector named = .error ⟨.bandRange, handle⟩)
            ∧ (level ≤ m.level → (named = false ∨ cylinder < v.limit) →
                s.chainResolve level handle cylinder head sector named
                  = .ok ⟨v.target, m, cylinder + v.offset, head, sector, some ⟨handle, v.offset, v.limit⟩⟩)))
    ∧ (∀ m named, s.chainEntry level handle = .ok (.medium m) →
        s.chainResolve level handle cylinder head sector named = .ok ⟨handle, m, cylinder, head, sector, none⟩)
    ∧ (∀ r : Resolved,
        (r.medium.geometry.cylinders ≤ r.cylinder ∨ r.medium.geometry.heads ≤ r.head →
          r.checkBand = .error ⟨.bandRange, r.handle⟩ ∧ r.checkKey = .error ⟨.bandRange, r.handle⟩)
        ∧ (r.cylinder < r.medium.geometry.cylinders → r.head < r.medium.geometry.heads →
            r.checkBand = .ok r
            ∧ (r.sector < r.medium.geometry.firstId ∨ r.medium.geometry.firstId + r.medium.geometry.sectors ≤ r.sector →
                r.checkKey = .error ⟨.bandRange, r.handle⟩)
            ∧ (r.medium.geometry.firstId ≤ r.sector → r.sector < r.medium.geometry.firstId + r.medium.geometry.sectors →
                r.checkKey = .ok r))
        ∧ (r.medium.present = false → r.checkPresent = .error ⟨.notPresent, r.handle⟩)
        ∧ (r.medium.present = true → r.checkPresent = .ok r))
    ∧ (∀ e named, s.chainEntry level handle = .error e → s.chainResolve level handle cylinder head sector named = .error e)
    ∧ (∀ b : BandField,
        (∀ e, s.chainResolve level b.handle.toNat b.cylinder.toNat b.head.toNat 0 true = .error e →
          s.chainBand level b = .error e ∧ s.chainReadBand level b = .error e)
        ∧ (∀ r, s.chainResolve level b.handle.toNat b.cylinder.toNat b.head.toNat 0 true = .ok r →
            s.chainBand level b = r.checkBand
            ∧ (∀ e, r.checkBand = .error e → s.chainReadBand level b = .error e)
            ∧ (∀ r', r.checkBand = .ok r' → s.chainReadBand level b = r'.checkPresent)))
    ∧ (∀ k : KeyField,
        (∀ e, s.chainResolve level k.handle.toNat k.cylinder.toNat k.head.toNat k.sector.toNat true = .error e → s.chainKey level k = .error e)
        ∧ (∀ r, s.chainResolve level k.handle.toNat k.cylinder.toNat k.head.toNat k.sector.toNat true = .ok r →
            s.chainKey level k = r.checkKey))
    ∧ (∀ h : BitVec 6, s.chainVolume level h = s.chainResolve level h.toNat 0 0 0 false)

/-- Each command that names a handle runs the steps R34 gives it, and the first that fails refuses the command with its code and
the handle that failed; nothing else changes. -/
def Obligations.CheckChainRefuses : Prop :=
  ∀ (s : State) (q : Queue) (tag : BitVec 8) (c : HostCommand) (e : ChainRefusal), s.Ready → malformed c = false →
    ((∃ b, c = .readBand b ∧ s.chainReadBand (s.link.level q) b = .error e)
      ∨ (∃ b, (c = .probeProfile b ∨ ∃ scope, c = .retireBand b scope) ∧ s.chainBand (s.link.level q) b = .error e)
      ∨ (∃ k, ((∃ w, c = .lookup k w) ∨ (∃ w states, c = .find k w states) ∨ (∃ n, c = .fetch k n) ∨ (∃ n, c = .choose k n)
            ∨ (∃ check, c = .amend k check) ∨ c = .retire k ∨ c = .synthesize k) ∧ s.chainKey (s.link.level q) k = .error e)
      ∨ (∃ h scope, c = .retireVolume h scope ∧ s.chainVolume (s.link.level q) h = .error e)
      ∨ (∃ h, (c = .confirm h ∨ c = .unmount h ∨ c = .describe h) ∧ s.chainEntry (s.link.level q) h.toNat = .error e)) →
    exec (instrOf q tag c) s = .next (s.answered q (refusalNaming q tag c.code e.code e.handle []))

/-! ## Profiles -/

/-- SET PROFILE and CLEAR PROFILE (R46, R47, R52 to R54). SET PROFILE: the slot takes every field of the command and is valid, every other
slot and the default stand, and the answer carries the valid flag it held before; a selector that names no slot, and then the first field
outside its range, refuse the command: of the match fields the head, of the attributes the pass limit and then the quorum, since every
other field of the record holds its range and no more. CLEAR PROFILE: one slot, or with ALL the ten, becomes not valid, the answer carries
how many were valid, and the default profile is not touched. The word that names the field of a BAD_PROFILE is a free value of the model
(log 11), and the numbers 1 and 0 of a valid flag are log 40. -/
def Obligations.SlotCommands : Prop :=
  (∀ (s : State) (tag slot : BitVec 8) (m : MatchField) (a : AttributeField), s.Ready →
    (slot = 10 ∨ slot = 11 → s.Refuses (.setProfile .console tag slot m a) .console tag 16 .badParameter [])
    ∧ (slot.toNat < 10 →
        (47 < m.head.toNat → s.Refuses (.setProfile .console tag slot m a) .console tag 16 .badProfile [Config.profileFieldWord .head])
        ∧ (m.head.toNat ≤ 47 →
            (a.passLimit.toNat = 0 →
              s.Refuses (.setProfile .console tag slot m a) .console tag 16 .badProfile [Config.profileFieldWord .passLimit])
            ∧ (1 ≤ a.passLimit.toNat → a.quorum.toNat = 0 ∨ 4 < a.quorum.toNat →
                s.Refuses (.setProfile .console tag slot m a) .console tag 16 .badProfile [Config.profileFieldWord .quorum])))
    ∧ (∀ i : Fin 10, slot.toNat = i.val →
        m.head.toNat ≤ 47 → (1 ≤ a.passLimit.toNat ∧ a.passLimit.toNat ≤ 15) → (1 ≤ a.quorum.toNat ∧ a.quorum.toNat ≤ 4) →
        ∃ t : ProfileTable,
          exec (.setProfile .console tag slot m a) s
            = .next (({ s with profiles := t } : State).answered .console
                (answerOf .console tag 16 .done [if s.profiles.slots[i].isSome then 1 else 0]))
          ∧ t.slots[i] = some
              { matching := { cls := m.cls.toNat, classMask := m.classMask.toNat, cylinder := m.cylinder.toNat
                              cylinderMask := m.cylinderMask.toNat, head := m.head.toNat, anyHead := m.anyHead }
                attributes := { passLimit := a.passLimit.toNat, quorum := a.quorum.toNat, tolerance := a.tolerance.toNat
                                escalate := a.escalate, startRule := if a.startFirst then .first else .index
                                reseat := a.reseat, park := a.park, autoSynthesize := a.autoSynthesize } }
          ∧ (∀ k : Fin 10, k ≠ i → t.slots[k] = s.profiles.slots[k])
          ∧ t.default = s.profiles.default))
  ∧ (∀ (s : State) (tag slot : BitVec 8), s.Ready →
    (slot = 10 → s.Refuses (.clearProfile .console tag slot) .console tag 17 .badParameter [])
    ∧ (∀ i : Fin 10, slot.toNat = i.val →
        ∃ t : ProfileTable,
          exec (.clearProfile .console tag slot) s
            = .next (({ s with profiles := t } : State).answered .console
                (answerOf .console tag 17 .done [if s.profiles.slots[i].isSome then 1 else 0]))
          ∧ t.slots[i] = none ∧ (∀ k : Fin 10, k ≠ i → t.slots[k] = s.profiles.slots[k]) ∧ t.default = s.profiles.default)
    ∧ (slot = 11 →
        ∃ t : ProfileTable,
          exec (.clearProfile .console tag slot) s
            = .next (({ s with profiles := t } : State).answered .console
                (answerOf .console tag 17 .done [numberWord ((List.finRange 10).countP fun i => s.profiles.slots[i].isSome)]))
          ∧ (∀ k : Fin 10, t.slots[k] = none) ∧ t.default = s.profiles.default))

/-- SET DEFAULTS (R46, R52, R55): a pass limit outside its range, and then a quorum, refuse the command with BAD_PROFILE, and the word
that names the field is a free value of the model (log 11). Otherwise the default profile takes every attribute, the slots stand, and the
answer carries the values it held before, in the attribute word of R201. -/
def Obligations.SetDefaultsWritesDefault : Prop :=
  ∀ (s : State) (tag : BitVec 8) (a : AttributeField), s.Ready →
    (a.passLimit.toNat = 0 → s.Refuses (.setDefaults .console tag a) .console tag 18 .badProfile [Config.profileFieldWord .passLimit])
    ∧ (1 ≤ a.passLimit.toNat → a.quorum.toNat = 0 ∨ 4 < a.quorum.toNat →
        s.Refuses (.setDefaults .console tag a) .console tag 18 .badProfile [Config.profileFieldWord .quorum])
    ∧ ((1 ≤ a.passLimit.toNat ∧ a.passLimit.toNat ≤ 15) → (1 ≤ a.quorum.toNat ∧ a.quorum.toNat ≤ 4) →
        exec (.setDefaults .console tag a) s
          = .next (({ s with profiles := { slots := s.profiles.slots
                                           default :=
                                             { passLimit := a.passLimit.toNat, quorum := a.quorum.toNat
                                               tolerance := a.tolerance.toNat, escalate := a.escalate
                                               startRule := if a.startFirst then .first else .index
                                               reseat := a.reseat, park := a.park, autoSynthesize := a.autoSynthesize } } } :
                  State).answered .console (answerOf .console tag 18 .done [s.profiles.default.word])))

/-- READ PROFILE and PROBE PROFILE (R52, R56, R57) answer from either queue, at any level, and change nothing. The layouts of the
attribute word and of a match part are those of R201 and R204. The key word of a match part names no handle, and holds 63 there, the
absent match part and attributes are log 12, and the numbers 1 and 0 of a valid flag are log 40. -/
def Obligations.ReadAndProbeProfile : Prop :=
  (∀ a : Attributes, laidOut a.word
      [(31, 28, a.passLimit), (27, 25, a.quorum), (24, 22, a.tolerance), (21, 21, a.escalate.toNat), (20, 20, if a.startRule = .first then 1 else 0),
       (19, 19, a.reseat.toNat), (18, 18, a.park.toNat), (17, 17, a.autoSynthesize.toNat), (16, 0, 0)])
  ∧ (∀ m : MatchPart, ∃ w, m.words = [w, keyWord 63 m.cylinder m.head 0]
      ∧ laidOut w [(31, 29, m.cls), (28, 26, m.classMask), (25, 16, m.cylinderMask), (15, 15, m.anyHead.toNat), (14, 0, 0)])
  ∧ ∀ (s : State) (q : Queue) (tag : BitVec 8), s.Ready →
    (∀ (i : Fin 10) (slot : BitVec 8), slot.toNat = i.val →
      (∀ p, s.profiles.slots[i] = some p →
        exec (.readProfile q tag slot) s
          = .next (s.answered q (answerOf q tag 19 .done ([numberWord i.val, 1] ++ p.matching.words ++ [p.attributes.word]))))
      ∧ (s.profiles.slots[i] = none →
          exec (.readProfile q tag slot) s
            = .next (s.answered q (answerOf q tag 19 .done [numberWord i.val, 0, absentWord, absentWord, absentWord]))))
    ∧ exec (.readProfile q tag 10) s = .next (s.answered q (answerOf q tag 19 .done [10, s.profiles.default.word]))
    ∧ s.Refuses (.readProfile q tag 11) q tag 19 .badParameter []
    ∧ (∀ b r slot a, s.chainBand (s.link.level q) b = .ok r → s.profiles.search r.medium.cls r.cylinder r.head = (slot, a) →
        exec (.probeProfile q tag b) s
          = .next (s.answered q (answerOf q tag 20 .done
              [keyWord r.handle r.cylinder r.head 0, optionWord (r.via.map Via.handle), numberWord r.medium.cls, numberWord slot,
               a.word])))

/-- The governing profile of a band (R47, R48): the first of X0, X1, 0 to 7 that is valid and matches, or the default. A slot
matches when the class digits and the cylinder digits its masks select are equal, and its head is equal or not compared. -/
def Obligations.GoverningProfile : Prop :=
  ∀ (t : ProfileTable) (cls cylinder head : Nat),
    (∀ m : MatchPart, m.passes cls cylinder head = true ↔
      (∀ i, m.classMask.testBit i = true → m.cls.testBit i = cls.testBit i)
        ∧ (∀ i, m.cylinderMask.testBit i = true → m.cylinder.testBit i = cylinder.testBit i)
        ∧ (m.anyHead = true ∨ m.head = head))
    ∧ (∀ (before after : List (Fin 10)) (i : Fin 10) (p : Profile),
        before ++ i :: after = [8, 9, 0, 1, 2, 3, 4, 5, 6, 7] → t.slots[i] = some p → p.matching.passes cls cylinder head = true →
        (∀ k ∈ before, ∀ p', t.slots[k] = some p' → p'.matching.passes cls cylinder head = false) →
        t.search cls cylinder head = (i.val, p.attributes))
    ∧ ((∀ i : Fin 10, ∀ p, t.slots[i] = some p → p.matching.passes cls cylinder head = false) →
        t.search cls cylinder head = (10, t.default))

/-! ## Jobs -/

/-- READ BAND opens a job (R50, R58 to R62): the band's entries, the job with its snapshot and its opening values, the id counter and the
place for the notice, then the ACCEPTED answer, and then the offer of its port (R64). Where the port cannot be offered the job stays
QUEUED. Otherwise its queued jobs are met in opening order: each whose medium is absent fails with NOT_PRESENT, and the first whose medium
is present waits for a retension that is due, awaits a channel on its own band, or positions (R9, R66, R69, R75, R94, R95; log 35). On an
IDLE port without other jobs the job positions at once. -/
def Obligations.ReadBandOpensJob : Prop :=
  ∀ (s t : State) (q : Queue) (tag : BitVec 8) (b : BandField) (r : Resolved) (slot : Nat) (a : Attributes) (job : Job)
    (keys : List Key) (missing : Nat),
    keys = ((List.range r.medium.geometry.sectors).map (· + r.medium.geometry.firstId)).map (fun i => ⟨r.handle, r.cylinder, r.head, i⟩) →
    missing = keys.countP (fun k => (s.entry k).isNone) →
    s.Ready → s.chainReadBand (s.link.level q) b = .ok r → s.jobs.length < 8 → s.bandJob r.handle r.cylinder r.head = none →
    missing ≤ 1024 - s.entries.length →
    s.profiles.search r.medium.cls r.cylinder r.head = (slot, a) →
    job = { id := s.nextJobId, handle := r.handle, cylinder := r.cylinder, head := r.head, viaHandle := r.via.map Via.handle
            drive := r.medium.drive, level := s.link.level q, slot := slot, attributes := a, state := .queued, phase := .capturing
            ending := none, passesRun := 0, consecutiveFaults := 0, verification := .unverified, progress := false, holdRemaining := 0
            holdBroken := false, tolerance := a.tolerance, readingsTaken := 0, readingsDropped := 0, overrun := 0, strayHeaders := 0
            foreignHeaders := 0, headerFailures := 0, sizeMismatches := 0, faults := 0, skipped := 0, layout := [], queue := q, tag := tag
            closeHand := none, closeLeft := [] } →
    t = ({ s with
          entries := (s.openEntries keys r.medium.geometry.sizeCode a.quorum).entries
          jobs := s.jobs ++ [job]
          nextJobId := nextId ((s.jobs ++ [job]).map Job.id) 9 s.nextJobId
          link := { s.link with reserved := s.link.reserved + 1 } } : State).answered q
        (answerOf q tag 24 .accepted
          [numberWord s.nextJobId, numberWord slot, keyWord r.handle r.cylinder r.head 0, optionWord (r.via.map Via.handle),
           numberWord r.medium.drive.val, numberWord missing]) →
    (s.JobsSound → ∃ t', exec (.readBand q tag b) s = .next t' ∧ t.Offers t' r.medium.drive)
    ∧ ((s.port r.medium.drive).state ∉ [.idle, .onBand] ∨ (∃ j ∈ s.jobs, j.drive = r.medium.drive ∧ j.state ≠ .queued) →
      exec (.readBand q tag b) s = .next t)
    ∧ ((s.port r.medium.drive).state = .idle → (s.port r.medium.drive).motor = false → (s.port r.medium.drive).retensionDue = false →
        (∀ j ∈ s.jobs, j.drive ≠ r.medium.drive ∧ j.id ≠ s.nextJobId) →
        exec (.readBand q tag b) s
          = .next { t with
              jobs := s.jobs ++ [{ job with state := .positioning }]
              ports := s.ports.set r.medium.drive
                ((s.port r.medium.drive).positionRequest ⟨r.cylinder, r.head⟩ (r.medium.geometry.encoding, r.medium.geometry.rate)) })

/-- READ BAND's refusals after the check chain, in their order (R58). A refused READ BAND changes nothing. -/
def Obligations.ReadBandRefusals : Prop :=
  ∀ (s : State) (q : Queue) (tag : BitVec 8) (b : BandField) (r : Resolved) (keys : List Key) (missing : Nat),
    keys = ((List.range r.medium.geometry.sectors).map (· + r.medium.geometry.firstId)).map (fun i => ⟨r.handle, r.cylinder, r.head, i⟩) →
    missing = keys.countP (fun k => (s.entry k).isNone) →
    s.Ready → s.chainReadBand (s.link.level q) b = .ok r →
    (8 ≤ s.jobs.length → s.Refuses (.readBand q tag b) q tag 24 .jobsFull [])
    ∧ (s.jobs.length < 8 →
        (∀ j, s.bandJob r.handle r.cylinder r.head = some j → s.Refuses (.readBand q tag b) q tag 24 .bandActive [numberWord j.id])
        ∧ (s.bandJob r.handle r.cylinder r.head = none → 1024 - s.entries.length < missing →
            s.Refuses (.readBand q tag b) q tag 24 .tableFull [numberWord missing, numberWord (1024 - s.entries.length)]))

/-- Job open at the table (R59): an id without an entry gets a fresh one, EXPECTED with the quorum; an entry that stands takes the
quorum, MISSING becomes EXPECTED, EXHAUSTED becomes WEAK, TENTATIVE settles when its best's agree count reaches the quorum, and every
other state stands. Entries outside the band are not touched. The id that follows is the next of 0 to 255 no job holds (R61). -/
def Obligations.JobOpenEntries : Prop :=
  (∀ (s : State) (keys : List Key) (size quorum : Nat) (k : Key), keys.Nodup →
    (k ∉ keys → (s.openEntries keys size quorum).entry k = s.entry k)
    ∧ (k ∈ keys → s.entry k = none →
        (s.openEntries keys size quorum).entry k
          = some { key := k, size := size, state := .expected, best := none, candidates := [], readings := 0, headerOnly := 0, dropped := 0
                   lateVariants := 0, quorum := quorum, settledQuorum := none, amendSource := none, pinned := false })
    ∧ (∀ e, k ∈ keys → s.entry k = some e → (s.openEntries keys size quorum).entry k = some (e.open_ quorum)))
  ∧ (∀ (e : Entry) (quorum : Nat),
      (e.state = .missing → e.open_ quorum = { e with quorum := quorum, state := .expected, best := none, settledQuorum := none, amendSource := none })
      ∧ (e.state = .exhausted → e.open_ quorum = { e with quorum := quorum, state := .weak, best := none, settledQuorum := none, amendSource := none })
      ∧ (∀ k c, e.state = .tentative → e.best = some k → e.candidates[k]? = some c →
          (quorum ≤ c.agree → e.open_ quorum = { e with quorum := quorum, state := .settled, settledQuorum := some quorum, amendSource := none })
          ∧ (c.agree < quorum → e.open_ quorum = { e with quorum := quorum }))
      ∧ (e.state ∉ [.missing, .exhausted, .tentative] → e.open_ quorum = { e with quorum := quorum }))
  ∧ (∀ (inUse : List Nat) (id : Nat), id < 256 → inUse.length ≤ 8 →
      ∃ d, 1 ≤ d ∧ d ≤ 9 ∧ nextId inUse 9 id = (id + d) % 256 ∧ (id + d) % 256 ∉ inUse ∧ ∀ d', 1 ≤ d' → d' < d → (id + d') % 256 ∈ inUse)

/-- CANCEL (R82 to R85; the level of a transfer queue at level 0 is log 42): the refusals in their order, then the answer with the job's
state, its ending decided, its hold broken and its wait withdrawn. A job that waits for no drain gives up a channel it holds (R89, R96;
logs 23 and 35), posts its notice and leaves at once: with park after job on, one that awaited a channel parks its port (logs 6, 7 and
36), and one that positioned leaves it to park on arrival (R65); otherwise the port is offered (R64), but behind another active job. A job
that captures a sector ends when that sector does: until then the end is pending at its channel. Between sectors its pass ends at once,
uncounted (R102; log 3). One that drains gives up a channel it holds. In both its notice waits for the drain (R63, R70; log 20). -/
def Obligations.CancelJob : Prop :=
  ∀ (s : State) (q : Queue) (tag id : BitVec 8), s.Ready →
    (s.job id.toNat = none → s.Refuses (.cancel q tag id) q tag 25 .noSuchJob [])
    ∧ (∀ j, s.job id.toNat = some j →
        (j.level < s.link.level q → s.Refuses (.cancel q tag id) q tag 25 .level [])
        ∧ (s.link.level q ≤ j.level → j.state = .closing ∨ j.ending ≠ none → s.Refuses (.cancel q tag id) q tag 25 .tooLate [])
        ∧ (s.link.level q ≤ j.level → j.ending = none → s.JobsSound →
            ∀ (cancelled : Job) (u : State), cancelled = { j.breakHold with ending := some (.cancelled .host) } →
              u = (s.stopped j cancelled).answered q (answerOf q tag 25 .done [numberWord j.state.number]) →
              (j.state ∈ [.queued, .positioning, .awaitingChannel, .reseating, .retensionWait] →
                ∃ t v more, exec (.cancel q tag id) s = .next t
                  ∧ u.GivesUp v j.id ∧ v.Leaves t cancelled (.cancelled .host)
                  ∧ t.link.responses = s.link.responses
                      ++ [answerOf q tag 25 .done [numberWord j.state.number], cancelled.notice (.cancelled .host) (s.bandEntries j)] ++ more
                  ∧ ∀ x ∈ t.jobs, x.id ≠ j.id)
              ∧ (j.state = .queued → s.channelOf j.id = none → (s.activeJob j.drive).isSome = true →
                  exec (.cancel q tag id) s
                    = .next { s with
                        jobs := s.jobs.filter fun x => x.id != j.id
                        waits := s.waits.filter (· != j.id)
                        link := { s.link with
                          preference := otherQueue q
                          reserved := s.link.reserved - 1
                          responses := s.link.responses ++
                            [answerOf q tag 25 .done [0], cancelled.notice (.cancelled .host) (s.bandEntries j)] } })
              ∧ (j.state = .streaming → j.phase = .draining → s.TableSound →
                  ∃ t v, exec (.cancel q tag id) s = .next t ∧ u.GivesUp v j.id ∧ v.GoesOn t cancelled)
              ∧ (∀ c, j.state = .streaming → j.phase = .capturing → s.channelOf j.id = some c →
                  (∀ r, (s.channel c).receipt = some r →
                    exec (.cancel q tag id) s = .next (u.setChannel c { s.channel c with endPending := some .cancel }))
                  ∧ ((s.channel c).receipt = none → (s.port j.drive).state = .streaming → s.TableSound →
                      ∃ t, exec (.cancel q tag id) s = .next t ∧ u.EndsCancelled t c cancelled))))

/-- HOLD (R97): the refusals in their order; a job whose hold stands is answered HOLD_IGNORED, and any other job's hold remaining
becomes the number of passes. -/
def Obligations.HoldJob : Prop :=
  ∀ (s : State) (q : Queue) (tag id : BitVec 8) (passes : BitVec 5), s.Ready →
    (passes.toNat < 2 ∨ 16 < passes.toNat → s.Refuses (.hold q tag id passes) q tag 26 .badParameter [])
    ∧ (2 ≤ passes.toNat → passes.toNat ≤ 16 →
        (s.job id.toNat = none → s.Refuses (.hold q tag id passes) q tag 26 .noSuchJob [])
        ∧ (∀ j, s.job id.toNat = some j →
            (j.level < s.link.level q → s.Refuses (.hold q tag id passes) q tag 26 .level [])
            ∧ (s.link.level q ≤ j.level → j.state = .closing ∨ j.ending ≠ none → s.Refuses (.hold q tag id passes) q tag 26 .tooLate [])
            ∧ (s.link.level q ≤ j.level → j.state ≠ .closing → j.ending = none →
                (0 < j.holdRemaining →
                  exec (.hold q tag id passes) s
                    = .next (s.answered q (answerOf q tag 26 .holdIgnored [numberWord j.holdRemaining])))
                ∧ (j.holdRemaining = 0 →
                    exec (.hold q tag id passes) s
                      = .next ((s.updateJob j.id fun k => { k with holdRemaining := passes.toNat }).answered q
                          (answerOf q tag 26 .done [numberWord passes.toNat]))))))

/-! ## Records -/

/-- LOOKUP and FIND (R172 to R174): the entry record of the key, or of the first entry in key order that is of the handle, not
before the from-key, within the ALIAS's cylinders when one was named, and in a state of the set. Neither changes anything else. That
the bodies of the refusals begin with the key is log 13. The layouts are those of the key word (R201), reported through an ALIAS with
its handle and the cylinder less its offset (R171), and of the entry record with its candidates in the window named (R205). The bit of a
yes is log 40. -/
def Obligations.LookupAndFind : Prop :=
  (∀ handle cylinder head sector : Nat,
      laidOut (keyWord handle cylinder head sector) [(31, 26, handle), (25, 16, cylinder), (15, 10, head), (9, 2, sector), (1, 0, 0)])
  ∧ (∀ k : Key, k.wordVia none = keyWord k.handle k.cylinder k.head k.sector
      ∧ ∀ v : Via, k.wordVia (some v) = keyWord v.handle (k.cylinder - v.offset) k.head k.sector)
  ∧ (∀ r : Resolved, r.key = ⟨r.handle, r.cylinder, r.head, r.sector⟩ ∧ r.keyReport = r.key.wordVia r.via
      ∧ r.bandReport = (Key.mk r.handle r.cylinder r.head 0).wordVia r.via)
  ∧ (∀ (e : Entry) (via : Option Via) (w : Nat), ∃ second third,
      e.words via w = [e.key.wordVia via, second, third] ++ e.candidates.flatMap (fun c => c.words w)
      ∧ laidOut second
          [(31, 30, e.size),
           (29, 26, [EntryState.expected, .headerOnly, .weak, .tentative, .settled, .disputed, .synthesized, .amended, .missing,
                     .exhausted].idxOf e.state),
           (25, 23, e.best.getD 7), (22, 20, e.candidates.length), (19, 17, e.quorum), (16, 14, e.settledQuorum.getD 7),
           (13, 12, match e.amendSource with | some .hostData => 1 | some (.chosen _) => 2 | none => 3),
           (11, 10, match e.amendSource with | some (.chosen k) => k | some .hostData => 3 | none => 3),
           (9, 9, e.pinned.toNat), (8, 1, e.lateVariants), (0, 0, 0)]
      ∧ laidOut third [(31, 16, e.readings), (15, 8, e.headerOnly), (7, 0, e.dropped)])
  ∧ (∀ (c : Candidate) (w : Nat), ∃ second third, c.words w = [c.check, second, third]
      ∧ laidOut second
          [(31, 31, if c.clean then 0 else 1), (30, 29, [Origin.read, .synth, .host].idxOf c.origin), (28, 21, c.agree), (20, 17, c.firstPass),
           (16, 13, c.uncertain.length), (12, 12, c.moreUncertain.toNat), (11, 11, 0), (10, 0, (c.uncertain[3 * w]?).getD 2047)]
      ∧ laidOut third [(31, 21, (c.uncertain[3 * w + 1]?).getD 2047), (20, 10, (c.uncertain[3 * w + 2]?).getD 2047), (9, 0, 0)])
  ∧ ∀ (s : State) (q : Queue) (tag window : BitVec 8) (k : KeyField) (r : Resolved), s.Ready → window.toNat ≤ 2 →
    s.chainKey (s.link.level q) k = .ok r →
    (s.entry r.key = none → s.Refuses (.lookup q tag k window) q tag 32 .noEntry [r.keyReport])
    ∧ (∀ e, s.entry r.key = some e →
        exec (.lookup q tag k window) s = .next (s.answered q (answerOf q tag 32 .done (e.words r.via window.toNat))))
    ∧ s.Refuses (.find q tag k window 0) q tag 33 .badParameter [r.keyReport]
    ∧ (∀ states : Word, states ≠ 0 → states.extractLsb' 10 22 = 0 →
        ∀ p : Entry → Prop,
          (∀ e, p e ↔ e.key.handle = r.handle ∧ e.key.before r.key = false
            ∧ (∀ v, r.via = some v → v.offset ≤ e.key.cylinder ∧ e.key.cylinder < v.offset + v.limit)
            ∧ states.getLsbD e.state.number = true) →
          ((∀ e ∈ s.entries, ¬p e) →
            exec (.find q tag k window states) s = .next (s.answered q (answerOf q tag 33 .nothing [])))
          ∧ (∀ before e after, s.entries = before ++ e :: after → (∀ x ∈ before, ¬p x) → p e →
              exec (.find q tag k window states) s = .next (s.answered q (answerOf q tag 33 .done (e.words r.via window.toNat)))))

/-- FETCH (R163, R175, R176): the refusals in their order, and the outbound transfer it opens on a pinned entry. That the bodies of the
refusals begin with the key is log 13. -/
def Obligations.FetchOpensTransfer : Prop :=
  ∀ (s : State) (q : Queue) (tag candidate : BitVec 8) (k : KeyField) (r : Resolved), s.Ready → candidate.toNat ≤ 4 →
    s.chainKey (s.link.level q) k = .ok r →
    (s.entry r.key = none → s.Refuses (.fetch q tag k candidate) q tag 34 .noEntry [r.keyReport])
    ∧ (∀ e, s.entry r.key = some e →
        (candidate = 4 → e.best = none → s.Refuses (.fetch q tag k candidate) q tag 34 .noBest [r.keyReport, numberWord e.state.number])
        ∧ (e.candidates.length ≤ candidate.toNat → candidate ≠ 4 →
            s.Refuses (.fetch q tag k candidate) q tag 34 .noCandidate [r.keyReport, numberWord e.candidates.length])
        ∧ (∀ i c, (candidate = 4 ∧ e.best = some i) ∨ (candidate ≠ 4 ∧ candidate.toNat = i) → e.candidates[i]? = some c →
            (∀ t, s.transfer = some t →
              s.Refuses (.fetch q tag k candidate) q tag 34 .portBusy [r.keyReport, numberWord t.direction.number, t.key.word])
            ∧ (s.transfer = none →
                exec (.fetch q tag k candidate) s
                  = .next (({ s with
                      entries := s.entries.map fun x => if x.key == e.key then { x with pinned := true } else x
                      transfer := some { direction := .outbound, key := e.key, queue := q, tag := tag, level := s.link.level q
                                         frame := c.frame, candidate := some i, size := e.size, kind := r.medium.kind, check := c.check
                                         total := sectorLength e.size / 4 + 1, moved := 0 } } : State).answered q
                      (answerOf q tag 34 .done
                        [r.keyReport, numberWord i, numberWord c.origin.number, numberWord (checkNumber c.clean), numberWord c.agree,
                         numberWord c.firstPass, c.check, numberWord e.state.number, numberWord e.size,
                         numberWord (sectorLength e.size / 4 + 1)])))))

/-- CHOOSE (R177, R178): the refusals in their order. An accepted CHOOSE makes the entry AMENDED with best k and amend source CHOSEN k;
its candidates, counters and quorum stand, no frame moves, and the answer carries what the entry and the candidate held. That the bodies
of the refusals begin with the key is log 13. -/
def Obligations.ChooseAmendsEntry : Prop :=
  ∀ (s : State) (q : Queue) (tag candidate : BitVec 8) (k : KeyField) (r : Resolved), s.Ready → candidate.toNat ≤ 3 →
    s.chainKey (s.link.level q) k = .ok r →
    (s.entry r.key = none → s.Refuses (.choose q tag k candidate) q tag 35 .noEntry [r.keyReport])
    ∧ (∀ e, s.entry r.key = some e →
        (e.pinned = true → s.Refuses (.choose q tag k candidate) q tag 35 .pinned [r.keyReport])
        ∧ (e.pinned = false → e.state ∉ [.disputed, .tentative, .weak, .exhausted] →
            s.Refuses (.choose q tag k candidate) q tag 35 .state [r.keyReport, numberWord e.state.number])
        ∧ (e.pinned = false → e.state ∈ [.disputed, .tentative, .weak, .exhausted] →
            (e.candidates.length ≤ candidate.toNat →
              s.Refuses (.choose q tag k candidate) q tag 35 .noCandidate [r.keyReport, numberWord e.candidates.length])
            ∧ (∀ c, e.candidates[candidate.toNat]? = some c →
                exec (.choose q tag k candidate) s
                  = .next (({ s with entries := s.entries.map fun x =>
                        if x.key == e.key then
                          { x with state := .amended, best := some candidate.toNat, settledQuorum := none
                                   amendSource := some (.chosen candidate.toNat) }
                        else x } : State).answered q
                      (answerOf q tag 35 .done
                        [r.keyReport, numberWord e.state.number, numberWord candidate.toNat, numberWord c.origin.number,
                         numberWord (checkNumber c.clean), numberWord c.agree, numberWord c.firstPass, c.check])))))

/-- AMEND (R179, R165): the refusals in their order, and the inbound transfer it opens on a frame claimed from the pool, whose head it is
(log 9). That the bodies of the refusals begin with the key is log 13. -/
def Obligations.AmendOpensTransfer : Prop :=
  ∀ (s : State) (q : Queue) (tag : BitVec 8) (k : KeyField) (check : Word) (r : Resolved), s.Ready →
    s.chainKey (s.link.level q) k = .ok r →
    (s.entry r.key = none → s.Refuses (.amend q tag k check) q tag 36 .noEntry [r.keyReport])
    ∧ (∀ e, s.entry r.key = some e →
        (r.medium.kind = .floppy → 65535 < check.toNat → s.Refuses (.amend q tag k check) q tag 36 .badParameter [r.keyReport])
        ∧ (r.medium.kind ≠ .floppy ∨ check.toNat ≤ 65535 →
            (e.pinned = true → s.Refuses (.amend q tag k check) q tag 36 .pinned [r.keyReport])
            ∧ (e.pinned = false →
                (∀ t, s.transfer = some t →
                  s.Refuses (.amend q tag k check) q tag 36 .portBusy [r.keyReport, numberWord t.direction.number, t.key.word])
                ∧ (s.transfer = none → s.pool = [] → s.Refuses (.amend q tag k check) q tag 36 .noFrame [r.keyReport])
                ∧ (∀ frame rest, s.transfer = none → s.pool = frame :: rest →
                    exec (.amend q tag k check) s
                      = .next (({ s with
                          pool := rest
                          transfer := some { direction := .inbound, key := e.key, queue := q, tag := tag, level := s.link.level q
                                             frame := frame, candidate := none, size := e.size, kind := r.medium.kind, check := check
                                             total := sectorLength e.size / 4, moved := 0 } } : State).answered q
                          (answerOf q tag 36 .done
                            [r.keyReport, numberWord e.state.number, numberWord e.size, check,
                             numberWord (sectorLength e.size / 4)]))))))

/-- RETIRE, RETIRE BAND and RETIRE VOLUME (R182 to R184): a job of the band or volume refuses each, and RETIRE also a missing or pinned
entry. RETIRE takes its one entry; the other two take every entry of the band, or of the volume within the ALIAS named, that is in scope
and not pinned. The frames of an entry's candidates go to the pool, at its front (log 9), every other entry stands, and the answer counts.
The key word that names a volume has cylinder, head and sector id 0 (log 32). That the bodies of the refusals begin with the key, band or
volume is log 13. -/
def Obligations.RetireCommands : Prop :=
  ∀ (s : State) (q : Queue) (tag : BitVec 8), s.Ready → s.TableSound →
    (∀ (k : KeyField) (r : Resolved), s.chainKey (s.link.level q) k = .ok r →
      (s.entry r.key = none → s.Refuses (.retire q tag k) q tag 37 .noEntry [r.keyReport])
      ∧ (∀ e, s.entry r.key = some e →
          (∀ j, s.bandJob r.handle r.cylinder r.head = some j →
            s.Refuses (.retire q tag k) q tag 37 .bandActive [r.keyReport, numberWord j.id])
          ∧ (s.bandJob r.handle r.cylinder r.head = none →
              (e.pinned = true → s.Refuses (.retire q tag k) q tag 37 .pinned [r.keyReport])
              ∧ (e.pinned = false →
                  exec (.retire q tag k) s
                    = .next (({ s with
                        entries := s.entries.filter fun x => x.key != e.key
                        pool := (e.candidates.map Candidate.frame).reverse ++ s.pool } : State).answered q
                        (answerOf q tag 37 .done [r.keyReport, numberWord e.state.number, numberWord e.candidates.length]))))))
    ∧ (∀ (i : Instr) (code scope : BitVec 8) (r : Resolved) (p : Entry → Bool) (active : Option Job) (named : Word),
        scope.toNat ≤ 1 →
        ((∃ b, i = .retireBand q tag b scope ∧ s.chainBand (s.link.level q) b = .ok r ∧ code = 38
            ∧ active = s.bandJob r.handle r.cylinder r.head ∧ named = r.bandReport
            ∧ ∀ e, p e = true ↔ e.key.handle = r.handle ∧ e.key.cylinder = r.cylinder ∧ e.key.head = r.head)
          ∨ (∃ h, i = .retireVolume q tag h scope ∧ s.chainVolume (s.link.level q) h = .ok r ∧ code = 39
            ∧ active = s.jobs.find? (fun j => j.handle == r.handle) ∧ (r.via = none → named = keyWord r.handle 0 0 0)
            ∧ (∀ v, r.via = some v → named = keyWord v.handle 0 0 0)
            ∧ ∀ e, p e = true ↔ e.key.handle = r.handle
                ∧ ∀ v, r.via = some v → v.offset ≤ e.key.cylinder ∧ e.key.cylinder < v.offset + v.limit)) →
        (∀ j, active = some j → s.Refuses i q tag code .bandActive [named, numberWord j.id])
        ∧ (active = none →
            ∀ gone : Entry → Bool, (∀ e, gone e = true ↔ p e = true ∧ (scope = 1 ∨ e.state.closed = true) ∧ e.pinned = false) →
              exec i s
                = .next (({ s with
                    entries := s.entries.filter fun e => !gone e
                    pool := ((s.entries.filter gone).flatMap fun e => e.candidates.map Candidate.frame).reverse ++ s.pool } :
                      State).answered q
                    (answerOf q tag code .done
                      [named, numberWord (s.entries.countP gone),
                       numberWord (s.entries.countP fun e => p e && (scope == 1 || e.state.closed) && e.pinned),
                       numberWord (s.entries.countP fun e => p e && !(scope == 1 || e.state.closed)),
                       numberWord ((s.entries.filter gone).map fun e => e.candidates.length).sum]))))

/-- SYNTHESIZE (R142 to R145, R153): the refusals at its taking in their order; behind a busy unit it waits with its place
reserved; at an idle unit the vote starts on the inputs of its candidates, with a work frame claimed from the pool, whose head it is
(log 9). That the refusals carry no key is log 13. -/
def Obligations.SynthesizeStarts : Prop :=
  (∀ e : Entry, e.readCount = e.candidates.countP fun c => decide (c.origin = .read))
  ∧ (∀ (u : Synth) (command : SynthRequest → Bool), (∀ r, command r = true ↔ ∃ q tag via, r.source = .command q tag via) →
      u.commandRequests = (u.wait ++ u.inHand.toList).countP command)
  ∧ ∀ (s : State) (q : Queue) (tag : BitVec 8) (k : KeyField) (r : Resolved), s.Ready → s.chainKey (s.link.level q) k = .ok r →
    (s.entry r.key = none → s.Refuses (.synthesize q tag k) q tag 40 .noEntry [])
    ∧ (∀ e, s.entry r.key = some e →
        (∀ j, s.bandJob r.handle r.cylinder r.head = some j → s.Refuses (.synthesize q tag k) q tag 40 .bandActive [numberWord j.id])
        ∧ (s.bandJob r.handle r.cylinder r.head = none →
            (e.pinned = true → s.Refuses (.synthesize q tag k) q tag 40 .pinned [])
            ∧ (e.pinned = false → e.state ∉ [.weak, .exhausted] →
                s.Refuses (.synthesize q tag k) q tag 40 .state [numberWord e.state.number])
            ∧ (e.pinned = false → e.state ∈ [.weak, .exhausted] →
                (e.readCount < 3 → s.Refuses (.synthesize q tag k) q tag 40 .tooFew [numberWord e.readCount])
                ∧ (3 ≤ e.readCount →
                    (4 ≤ s.synth.commandRequests → s.Refuses (.synthesize q tag k) q tag 40 .synthBusy [])
                    ∧ (s.synth.commandRequests < 4 → s.synth.inputs ≠ none ∨ s.synth.wait ≠ [] →
                        exec (.synthesize q tag k) s
                          = .next { s with
                              synth := { s.synth with wait := s.synth.wait ++ [⟨r.key, .command q tag r.via⟩] }
                              link := { s.link with preference := otherQueue q, reserved := s.link.reserved + 1 } })
                    ∧ (s.synth.commandRequests < 4 → s.synth.inputs = none → s.synth.wait = [] →
                        (s.pool = [] → s.Refuses (.synthesize q tag k) q tag 40 .noFrame [])
                        ∧ (∀ frame rest, s.pool = frame :: rest →
                            exec (.synthesize q tag k) s
                              = .next { s with
                                  pool := rest
                                  synth := { s.synth with
                                    inHand := some ⟨r.key, .command q tag r.via⟩, workFrame := some frame
                                    inputs := some (s.synthInputs r.medium.kind e.size e.candidates 0)
                                    kind := r.medium.kind, contested := 0, ties := 0 }
                                  link := { s.link with preference := otherQueue q, reserved := s.link.reserved + 1 } }))))))

/-! ## The link port's commands -/

/-- ABORT TRANSFER and SET TRANSFER LEVEL (R167, R188): an aborted export unpins its entry, an aborted import returns its frame to
the front of the pool (log 9), and either way the closing record is written; the transfer queue's level becomes the one given. That a
transfer queue at level 0 aborts a transfer of the console queue too is log 42. -/
def Obligations.AbortAndSetLevel : Prop :=
  ∀ (s : State) (q : Queue) (tag : BitVec 8), s.Ready →
    (s.transfer = none → s.Refuses (.abortTransfer q tag) q tag 44 .noTransfer [])
    ∧ (∀ t, s.transfer = some t →
        (t.level < s.link.level q → s.Refuses (.abortTransfer q tag) q tag 44 .level [])
        ∧ (s.link.level q ≤ t.level →
            ∀ answer, answer = answerOf q tag 44 .done
                [numberWord t.direction.number, t.key.word, numberWord t.total, numberWord t.moved] →
              (t.direction = .outbound →
                exec (.abortTransfer q tag) s
                  = .next (({ s with
                      entries := s.entries.map fun e => if e.key == t.key then { e with pinned := false } else e
                      transfer := none
                      closing := some ⟨.outbound, t.key, t.queue, t.tag, t.total, t.moved, .aborted⟩ } : State).answered q answer))
              ∧ (t.direction = .inbound →
                  exec (.abortTransfer q tag) s
                    = .next (({ s with
                        pool := t.frame :: s.pool
                        transfer := none
                        closing := some ⟨.inbound, t.key, t.queue, t.tag, t.total, t.moved, .aborted⟩ } : State).answered q answer))))
    ∧ (∀ level : BitVec 3, level.toNat ≤ 3 →
        exec (.setTransferLevel .console tag level) s
          = .next (({ s with link := { s.link with transferLevel := level.toNat } } : State).answered .console
              (answerOf .console tag 48 .done [numberWord s.link.transferLevel])))

/-- STATUS (R198): each part's answer, and nothing changed. The layout of each body is that of R204, with the packed words of SUMMARY, JOB
and CHANNELS and the numbers of the value lists spelled (11.6). That the reserved places of SUMMARY count the command's own is log 14. The
absent words of a band, a head cylinder, a transfer and a closing record are log 12; the key word of a port's band names no handle, and
holds 63 there. The numbers of a yes and a no are log 40. -/
def Obligations.StatusAnswers : Prop :=
  (∀ (s : State) (count : JobState → Nat), (∀ st, count st = s.jobs.countP fun j => j.state == st) →
      laidOut s.jobCounts
        [(31, 28, count .queued), (27, 24, count .positioning), (23, 20, count .awaitingChannel), (19, 16, count .streaming),
         (15, 12, count .reseating), (11, 8, count .retensionWait), (7, 4, count .closing), (3, 0, 0)])
  ∧ (∀ j : Job, ∃ first packed, j.body = [first, numberWord j.layout.length, keyWord j.handle j.cylinder j.head 0] ++ packed
      ∧ laidOut first
          [(31, 24, j.id),
           (23, 21, [JobState.queued, .positioning, .awaitingChannel, .streaming, .reseating, .retensionWait, .closing].idxOf j.state),
           (20, 20, [StreamPhase.capturing, .draining].idxOf j.phase), (19, 18, j.drive.val), (17, 14, j.passesRun),
           (13, 12, j.consecutiveFaults), (11, 7, j.holdRemaining), (6, 4, j.tolerance), (3, 0, 0)]
      ∧ packed.length = (j.layout.length + 3) / 4
      ∧ ∀ i w, packed[i]? = some w → laidOut w
          [(31, 24, (j.layout[4 * i]?).getD 255), (23, 16, (j.layout[4 * i + 1]?).getD 255), (15, 8, (j.layout[4 * i + 2]?).getD 255),
           (7, 0, (j.layout[4 * i + 3]?).getD 255)])
  ∧ (∀ waits : List Nat, laidOut (fourToWord waits)
      [(31, 24, (waits[0]?).getD 255), (23, 16, (waits[1]?).getD 255), (15, 8, (waits[2]?).getD 255), (7, 0, (waits[3]?).getD 255)])
  ∧ (transferBody none = [0, absentWord, absentWord, absentWord]
      ∧ ∀ t : Transfer, transferBody (some t)
          = [numberWord (if t.direction = .outbound then 1 else 2), t.key.word, numberWord t.total, numberWord t.moved])
  ∧ (closingBody none = [absentWord]
      ∧ ∀ (direction : Direction) (key : Key) (q : Queue) (tag : BitVec 8) (total moved : Nat) (outcome : ClosingOutcome) (ends : List Word),
          ((outcome = .completed ∧ ends = [0, absentWord, absentWord]) ∨ (outcome = .noEntry ∧ ends = [1, absentWord, absentWord])
            ∨ (outcome = .stale ∧ ends = [2, absentWord, absentWord]) ∨ (∃ k, outcome = .identical k ∧ ends = [3, numberWord k, absentWord])
            ∨ (∃ k, outcome = .joined k ∧ ends = [4, numberWord k, absentWord])
            ∨ (∃ gone k, outcome = .replaced gone k ∧ ends = [5, numberWord gone, numberWord k])
            ∨ (outcome = .aborted ∧ ends = [6, absentWord, absentWord]) ∨ (outcome = .restart ∧ ends = [7, absentWord, absentWord])) →
          closingBody (some ⟨direction, key, q, tag, total, moved, outcome⟩)
            = [numberWord (if direction = .outbound then 1 else 2), key.word, numberWord tag.toNat, numberWord (if q = .console then 0 else 1),
               numberWord total, numberWord moved] ++ ends)
  ∧ ([PortKind.noDrive, .floppy, .cartridge].map PortKind.number = List.range 3
      ∧ [PortState.offline, .idle, .positioning, .onBand, .streaming, .parking, .retensioning, .faulted].map PortState.number = List.range 8
      ∧ [none, some FaultCause.positionOvertime, some .parkOvertime, some .repeatedWatchdog, some .retensionOvertime,
          some .retensionMediaChange].map faultNumber = List.range 6
      ∧ [ChannelState.free, .armed, .capturing, .held].map ChannelState.number = List.range 4)
  ∧ ∀ (s : State) (q : Queue) (tag part number : BitVec 8), s.Ready →
    (∀ body : List Word,
      (part = 0 ∧ body =
          [numberWord s.entries.length, numberWord s.pool.length, s.jobCounts, numberWord s.channelA.grants,
           numberWord s.channelB.grants, numberWord s.waits.length, numberWord s.input.length,
           if s.synth.inputs = none then 0 else 1, numberWord s.synth.wait.length, numberWord (s.link.reserved + 1),
           numberWord s.link.transferLevel])
        ∨ (part = 1 ∧ ∃ p : Fin 4, number.toNat = p.val ∧ body =
            [numberWord (s.port p).kind.number, numberWord (s.port p).state.number,
             ((s.port p).band.map fun b => keyWord 63 b.cylinder b.head 0).getD absentWord, optionWord (s.port p).headCylinder,
             if (s.port p).ready then 1 else 0, numberWord (s.port p).passCount, numberWord (faultNumber (s.port p).fault),
             if (s.port p).parkOnArrival then 1 else 0])
        ∨ (part = 2 ∧ body =
            [numberWord s.channelA.state.number, optionWord s.channelA.owner, numberWord s.channelA.grants,
             numberWord s.channelB.state.number, optionWord s.channelB.owner, numberWord s.channelB.grants,
             numberWord s.waits.length, fourToWord s.waits])
        ∨ (part = 3 ∧ ∃ j, s.job number.toNat = some j ∧ body = j.body)
        ∨ (part = 4 ∧ body = transferBody s.transfer ++ closingBody s.closing)
        ∨ (part = 5 ∧ body =
            [numberWord s.pool.length, 4, numberWord (s.entries.map fun e => e.candidates.length).sum,
             numberWord (inboundOf s.transfer).length, numberWord s.synth.workFrame.toList.length]) →
      exec (.status q tag part number) s = .next (s.answered q (answerOf q tag 49 .done body)))
    ∧ (part = 3 → s.job number.toNat = none → s.Refuses (.status q tag part number) q tag 49 .noSuchJob [])

/-- CLEAR FLAGS (R197, R203): each of the six flags named is cleared, the others keep their values, and the answer carries the
values all six held. A command that names none is refused. The numbers 1 and 0 of a flag in the answer are log 40. -/
def Obligations.ClearFlagsClears : Prop :=
  ∀ (s : State) (q : Queue) (tag : BitVec 8) (flags : BitVec 6), s.Ready →
    (flags = 0 → s.Refuses (.clearFlags q tag flags) q tag 50 .badParameter [])
    ∧ (flags ≠ 0 →
        ∀ values : List Bool,
          values = [s.link.overflow, s.link.portMisuse, s.link.mediaChanged.p0, s.link.mediaChanged.p1, s.link.mediaChanged.p2,
                    s.link.mediaChanged.p3] →
          exec (.clearFlags q tag flags) s
            = .next (({ s with link := { s.link with
                  overflow := if flags.getLsbD 0 then false else s.link.overflow
                  portMisuse := if flags.getLsbD 1 then false else s.link.portMisuse
                  mediaChanged :=
                    { p0 := if flags.getLsbD 2 then false else s.link.mediaChanged.p0
                      p1 := if flags.getLsbD 3 then false else s.link.mediaChanged.p1
                      p2 := if flags.getLsbD 4 then false else s.link.mediaChanged.p2
                      p3 := if flags.getLsbD 5 then false else s.link.mediaChanged.p3 } } } : State).answered q
                (answerOf q tag 50 .done (values.map fun v => if v then 1 else 0))))

/-- RESTART (R27, R88, R92, R93, R139, R154, R170, R187, R199), given at a ready intake or taken from the head of the console list, where
it discards every record that waits in either list. The abandoned requests are refused, the jobs end in opening order, then the answer
posts; channels, waits, readings, the unit and the transfer are cleared, each held frame is in the pool (log 9), and the tables stand. A
port that positions, streams or parks is IDLE with its work broken off, and without its head cylinder where it recalibrated or parked;
any other only loses park-on-arrival. The response queue keeps what it held; the assemblies, the transfer level, the enables and the
media-changed flags stand. -/
def Obligations.RestartClearsWork : Prop :=
  ∀ (s : State) (tag : BitVec 8) (run : Host.Outcome State Fault Refusal), s.JobsSound →
    ((s.Ready ∧ run = exec (.restart .console tag) s)
      ∨ (∃ more, s.link.console.records = HostCommand.restart.record tag :: more
          ∧ (s.link.preference = .console ∨ s.link.transfer.records = []) ∧ 2 ≤ s.link.freePlaces ∧ run = .next s.intake)) →
    ∃ t, run = .next t
      ∧ t.link = { s.link with
            console := { s.link.console with records := [] }, transfer := { s.link.transfer with records := [] }
            overflow := false, portMisuse := false, preference := .console
            reserved := s.link.reserved - s.jobs.length - s.synth.commandRequests
            responses := s.link.responses
              ++ (s.synth.inHand.toList ++ s.synth.wait).filterMap (fun r =>
                  match r.source with
                  | .command q tag _ => some (refusalOf q tag 40 .abandoned [])
                  | .close _ => none)
              ++ s.jobs.map (fun j => (j.decide (.cancelled .restart)).notice (j.ending.getD (.cancelled .restart)) (s.bandEntries j))
              ++ [answerOf .console tag 51 .done []] }
      ∧ t.jobs = [] ∧ t.nextJobId = s.nextJobId ∧ t.waits = [] ∧ t.input = []
      ∧ t.volumes = s.volumes ∧ t.profiles = s.profiles ∧ t.memory = s.memory ∧ t.pending = s.pending
      ∧ (∀ (p : Fin 4) (idle : Port),
          idle = { s.port p with
            state := .idle, band := none, motor := false, spinUp := false, atStart := false, settleTimer := none, overtimeTimer := none
            streamWatchdog := none, retensionWatchdog := none, stepTimer := none, motion := .still, parkOnArrival := false
            requests := (s.port p).requests ++ (if (s.port p).motor then [.motorOff] else [])
              ++ (if (s.port p).kind = .cartridge then [.stopTape] else []) } →
          ((s.port p).state = .streaming ∨ ((s.port p).state = .positioning ∧ (s.port p).motion ≠ .recalibrating) → t.port p = idle)
          ∧ ((s.port p).state = .parking ∨ ((s.port p).state = .positioning ∧ (s.port p).motion = .recalibrating) →
              t.port p = { idle with headCylinder := none })
          ∧ ((s.port p).state ∈ [.offline, .idle, .onBand, .retensioning, .faulted] →
              t.port p = { s.port p with parkOnArrival := false }))
      ∧ (∀ c, t.channel c = { Channel.reset (s.channel c).placeOne.frame (s.channel c).placeTwo.frame with grants := (s.channel c).grants })
      ∧ (t.synth.inHand = none ∧ t.synth.wait = [] ∧ t.synth.workFrame = none ∧ t.synth.inputs = none)
      ∧ t.transfer = none
      ∧ (∀ u, s.transfer = some u →
          t.closing = some ⟨u.direction, u.key, u.queue, u.tag, u.total, u.moved, .restart⟩
          ∧ (u.direction = .outbound →
              t.entries = s.entries.map (fun e => if e.key == u.key then { e with pinned := false } else e)
              ∧ t.pool = s.synth.workFrame.toList ++ s.pool)
          ∧ (u.direction = .inbound → t.entries = s.entries ∧ t.pool = s.synth.workFrame.toList ++ u.frame :: s.pool))
      ∧ (s.transfer = none → t.closing = s.closing ∧ t.entries = s.entries ∧ t.pool = s.synth.workFrame.toList ++ s.pool)

/-! ## Drive reports and timers -/

/-- Ready and not-ready reports (R5, R6). At an OFFLINE port they are discarded. A not-ready report clears the ready flag alone; a
ready report sets it and clears spin-up pending, and changes nothing else unless it completes a positioning (R9, R10): on a floppy port not
while its head moves or settles, on a cartridge port not before its positioned report. -/
def Obligations.ReadyReports : Prop :=
  ∀ (s : State) (p : Fin 4),
    ((s.port p).state = .offline → exec (.readyReport p) s = .next s ∧ exec (.notReadyReport p) s = .next s)
    ∧ ((s.port p).state ≠ .offline →
        exec (.notReadyReport p) s = .next { s with ports := s.ports.set p { s.port p with ready := false } }
        ∧ ((s.port p).state ≠ .positioning →
            exec (.readyReport p) s = .next { s with ports := s.ports.set p { s.port p with ready := true, spinUp := false } })
        ∧ ((s.port p).state = .positioning →
            ((s.port p).kind = .floppy
                ∧ ((s.port p).motion ≠ .still ∨ ((s.port p).settleTimer ≠ none ∧ (s.port p).stepped = true)))
              ∨ ((s.port p).kind = .cartridge ∧ (s.port p).positioned = false) →
            exec (.readyReport p) s = .next { s with ports := s.ports.set p { s.port p with ready := true, spinUp := false } }))

/-- A media-change report (R5, R7, R22, R44, R76, R86): at an OFFLINE port it is discarded. At any other it sets the media-changed flag,
clears present on the drive's present entry, and acts on the port by its state. The port's active job is stopped: it fails with
MEDIA_GONE, or with RETENSION_FAULT where the port was RETENSIONING, unless its ending was decided before. A channel it holds is given up
(R89, R96; logs 23 and 35), a stream is cut off uncounted, its sector in receipt discarded (R70, R110), and the notice waits for its drain
(log 20); a close goes on (R81); any other job leaves at once. When it has left, or where there is none, the port is parked or offered
(R64, R65; logs 6, 7 and 36). The tape request of a fault is log 26. -/
def Obligations.MediaChangeAtPort : Prop :=
  ∀ (s : State) (p : Fin 4),
    ((s.port p).state = .offline → exec (.mediaChangeReport p) s = .next s)
    ∧ ((s.port p).state ≠ .offline → s.JobsSound →
        ∀ u : State,
          u = { s with
            link := { s.link with mediaChanged := s.link.mediaChanged.set p true }
            volumes := (match s.presentHandle p with
              | some h => (s.setPresent h false).volumes
              | none => s.volumes)
            ports := s.ports.set p (s.port p).mediaChanged } →
          (s.activeJob p = none → ∃ t, exec (.mediaChangeReport p) s = .next t ∧ u.Offers t p)
          ∧ (∀ j e, s.activeJob p = some j →
              e = .failed (if (s.port p).state = .retensioning then .retensionFault else .mediaGone) →
              ∃ t v, exec (.mediaChangeReport p) s = .next t ∧ u.Stops v j e
                ∧ (u.LeavesAtOnce j → v.Continues t (j.decide e) (j.ending.getD e))
                ∧ (¬u.LeavesAtOnce j → t = v)))

/-- The marks that begin a capture or pass without an end (R15, R100, R101): each restarts the stream watchdog at its full time. At an
ARMED channel an index begins an INDEX capture and a band start mark a cartridge capture. An index of a FIRST capture below its second is
counted. A block mark with no sector in receipt, and any of the marks at a stream that no channel sees, change the watchdog alone. So does
a band start mark at a channel that captures, which no rule treats: the model's choice (log 16). A mark at a port outside STREAMING, or of
the other kind, is discarded (R5). -/
def Obligations.CaptureMarks : Prop :=
  (∀ (s : State) (p : Fin 4),
    ((s.port p).kind ≠ .floppy ∨ (s.port p).state ≠ .streaming → exec (.indexReport p) s = .next s)
    ∧ ((s.port p).kind ≠ .cartridge ∨ (s.port p).state ≠ .streaming →
        ∀ report ∈ [Instr.blockMarkReport p, Instr.bandStartMark p, Instr.bandEndMark p], exec report s = .next s)
    ∧ (s.streamChannel p = none → (s.port p).state = .streaming →
        ((s.port p).kind = .floppy →
          exec (.indexReport p) s
            = .next { s with ports := s.ports.set p { s.port p with streamWatchdog := some (s.port p).indexTimeout } })
        ∧ ((s.port p).kind = .cartridge → ∀ report ∈ [Instr.blockMarkReport p, Instr.bandStartMark p, Instr.bandEndMark p],
            exec report s
              = .next { s with ports := s.ports.set p { s.port p with streamWatchdog := some (s.port p).markTimeout } })))
  ∧ ∀ (s : State) (p : Fin 4) (c : ChannelName) (rule : StartRule) (parameters : PassParameters), s.streamChannel p = some c →
    (s.channel c).parameters = some parameters → parameters.startRule = rule → parameters.kind = (s.port p).kind →
    (s.port p).state = .streaming →
    ((s.port p).kind = .floppy →
      ∀ watched : State, watched = { s with ports := s.ports.set p { s.port p with streamWatchdog := some (s.port p).indexTimeout } } →
        (rule = .index → (s.channel c).state = .armed → (s.channel c).indexesSeen = 0 →
          exec (.indexReport p) s
            = .next (watched.setChannel c { s.channel c with state := .capturing, startId := none, indexesSeen := 1 }))
        ∧ (rule = .first → (s.channel c).indexesSeen = 0 →
            exec (.indexReport p) s = .next (watched.setChannel c { s.channel c with indexesSeen := 1 }))
        ∧ (∀ report ∈ [Instr.blockMarkReport p, Instr.bandStartMark p, Instr.bandEndMark p], exec report s = .next s))
    ∧ ((s.port p).kind = .cartridge →
        ∀ watched : State, watched = { s with ports := s.ports.set p { s.port p with streamWatchdog := some (s.port p).markTimeout } } →
          ((s.channel c).state = .armed →
            exec (.bandStartMark p) s = .next (watched.setChannel c { s.channel c with state := .capturing, startId := none }))
          ∧ ((s.channel c).state = .capturing → exec (.bandStartMark p) s = .next watched)
          ∧ ((s.channel c).receipt = none → exec (.blockMarkReport p) s = .next watched)
          ∧ exec (.indexReport p) s = .next s)

/-- A pass ends normally (R16, R70, R77, R95 to R97, R102): at a band end mark, at the index that ends an INDEX capture, and at the second
index or the recurring start id of a FIRST capture (R100). A capture end that meets a sector in receipt is pending until that sector ends;
a band end mark in its data field discards it as incomplete (R101). The port is ON_BAND with its watchdog stopped, the pass is counted,
the consecutive fault count is 0 and the hold falls by 1. While it stands above 0 the channel is HELD, with its end pending none, the
model's choice (log 44); at 0 it is FREE, or granted to the oldest wait. A pass with no reading left to take is drained (log 20): the job
leaves with the ending decided before, or its pass is judged, and it closes, reseats or waits for its next pass (R63 to R65, R72 to R74,
R78 to R80, R152; logs 3, 6, 7, 9, 22, 23, 35 and 36). Under a pending cancel the pass ends uncounted instead, its channel given back
(R85). -/
def Obligations.PassEndsHeld : Prop :=
  ∀ (s : State) (p : Fin 4) (c : ChannelName) (j : Job) (parameters : PassParameters), s.streamChannel p = some c →
    (s.channel c).owner = some j.id → s.job j.id = some j → s.JobsSound → s.TableSound → j.drive = p →
    (s.port p).state = .streaming → (s.channel c).parameters = some parameters → parameters.kind = (s.port p).kind →
    ((s.channel c).receipt = none → ∀ (u : State) (mark : Instr),
      ((mark = .bandEndMark p ∧ (s.port p).kind = .cartridge ∧ u = s)
        ∨ (mark = .indexReport p ∧ (s.port p).kind = .floppy
          ∧ ((parameters.startRule = .index ∧ (s.channel c).state = .capturing)
            ∨ (parameters.startRule = .first ∧ (s.channel c).indexesSeen = 1))
          ∧ u = s.setChannel c { s.channel c with indexesSeen := satSucc 2 (s.channel c).indexesSeen })
        ∨ (∃ cylinder head sector size, mark = .goodHeader p cylinder head sector size ∧ (s.port p).kind = .floppy
          ∧ (s.channel c).state = .capturing ∧ parameters.startRule = .first ∧ (s.channel c).startId = some sector ∧ u = s)) →
      ∃ t, exec mark s = .next t ∧ u.EndsPass t c j)
    ∧ (∀ r, (s.channel c).receipt = some r → (s.port p).kind = .floppy →
        (parameters.startRule = .index ∧ (s.channel c).state = .capturing)
          ∨ (parameters.startRule = .first ∧ (s.channel c).indexesSeen = 1) →
        exec (.indexReport p) s
          = .next (({ s with ports := s.ports.set p { s.port p with streamWatchdog := some (s.port p).indexTimeout } } : State).setChannel c
              { s.channel c with indexesSeen := satSucc 2 (s.channel c).indexesSeen
                                 endPending := some ((s.channel c).endPending.getD .captureEnd) }))
    ∧ (∀ r u, (s.channel c).receipt = some r → r.dataMark = true → (s.port p).kind = .cartridge → (s.channel c).state = .capturing →
        u = s.setChannel c (s.channel c).discarded →
        ∃ t, exec (.bandEndMark p) s = .next t
          ∧ ((s.channel c).endPending ≠ some .cancel → u.EndsPass t c j)
          ∧ ((s.channel c).endPending = some .cancel → u.EndsCancelled t c j))

/-- A positioning request at a port (R1, R8, R10): a cartridge drive is sent to the band; a floppy port turns its motor on if it is off,
selects the head and issues its first step, outward where its head cylinder is UNKNOWN. The reports and expiries carry the positioning on,
here where they do not complete it: a track-0 report ends a recalibration, and the seek begins, or the head stands where it is where
cylinder 0 is the band's; a step interval's end brings the next step, the settle timer stops, the positioned report is noted. That the
seek's first step after a track-0 report waits for the step interval that runs is log 34. A positioned report at any port but a cartridge
port in POSITIONING, and a track-0 report at any but a floppy port that recalibrates or parks, is discarded (R5). -/
def Obligations.PositioningProceeds : Prop :=
  (∀ (p : Port) (b : BandAddress) (format : Encoding × DataRate) (entered : Port),
    entered = { p with state := .positioning, band := some b, format := some format, overtimeTimer := some 10000, stepped := false
                       positioned := false, motion := .still, stepTimer := none } →
    (p.kind = .cartridge → p.positionRequest b format = { entered with requests := p.requests ++ [.position b] })
    ∧ (p.kind = .floppy → ∀ asked : List DriveRequest,
        asked = p.requests ++ (if p.motor then [] else [.motorOn]) ++ [.selectHead b.head] →
        (p.headCylinder = none →
          p.positionRequest b format = { entered with
            atStart := true, motor := true, spinUp := p.spinUp || !p.motor, motion := .recalibrating, stepped := true
            settleTimer := some p.settleTime, stepTimer := some 3
            requests := asked ++ [.stepOut] })
        ∧ (p.headCylinder = some b.cylinder →
            p.positionRequest b format = { entered with
              atStart := true, motor := true, spinUp := p.spinUp || !p.motor, requests := asked })
        ∧ (∀ c, p.headCylinder = some c → c < b.cylinder →
            p.positionRequest b format = { entered with
              atStart := true, motor := true, spinUp := p.spinUp || !p.motor, stepped := true
              motion := if c + 1 = b.cylinder then .still else .seeking
              headCylinder := some (c + 1), settleTimer := some p.settleTime, stepTimer := if c + 1 = b.cylinder then none else some 3
              requests := asked ++ [.stepIn] })
        ∧ (∀ c, p.headCylinder = some c → b.cylinder < c →
            p.positionRequest b format = { entered with
              atStart := true, motor := true, spinUp := p.spinUp || !p.motor, stepped := true
              motion := if c = b.cylinder + 1 then .still else .seeking
              headCylinder := some (c - 1), settleTimer := some p.settleTime, stepTimer := if c = b.cylinder + 1 then none else some 3
              requests := asked ++ [.stepOut] })))
  ∧ (∀ (s : State) (p : Fin 4),
      ((s.port p).kind ≠ .cartridge ∨ (s.port p).state ≠ .positioning → exec (.positionedReport p) s = .next s)
      ∧ ((s.port p).kind ≠ .floppy ∨ (s.port p).state ∉ [.positioning, .parking]
          ∨ ((s.port p).state = .positioning ∧ (s.port p).motion ≠ .recalibrating) →
          exec (.track0Report p) s = .next s))
  ∧ ∀ (s : State) (p : Fin 4) (b : BandAddress), (s.port p).state = .positioning → (s.port p).band = some b →
    ((s.port p).kind = .floppy → (s.port p).motion = .recalibrating →
      (b.cylinder ≠ 0 → exec (.track0Report p) s
          = .next { s with ports := s.ports.set p { s.port p with headCylinder := some 0, motion := .seeking } })
      ∧ (b.cylinder = 0 → (s.port p).ready = false ∨ (s.port p).spinUp = true ∨ ((s.port p).settleTimer ≠ none ∧ (s.port p).stepped = true) →
          exec (.track0Report p) s
            = .next { s with ports := s.ports.set p { s.port p with headCylinder := some 0, motion := .still, stepTimer := none } })
      ∧ (∀ n, (s.port p).stepTimer = some n → exec (.stepIntervalExpiry p) s
          = .next { s with ports := s.ports.set p { s.port p with
              headCylinder := (s.port p).headCylinder.map (· - 1), settleTimer := some (s.port p).settleTime, stepTimer := some 3
              stepped := true, requests := (s.port p).requests ++ [.stepOut] } }))
    ∧ (∀ n, (s.port p).settleTimer = some n → (s.port p).motion ≠ .still ∨ (s.port p).ready = false ∨ (s.port p).spinUp = true →
        (s.port p).kind = .floppy →
        exec (.settleExpiry p) s = .next { s with ports := s.ports.set p { s.port p with settleTimer := none } })
    ∧ ((s.port p).kind = .floppy → (s.port p).motion = .seeking → ∀ h n, (s.port p).headCylinder = some h → (s.port p).stepTimer = some n →
        (h < b.cylinder → exec (.stepIntervalExpiry p) s
          = .next { s with ports := s.ports.set p { s.port p with
              headCylinder := some (h + 1), settleTimer := some (s.port p).settleTime, stepped := true
              stepTimer := if h + 1 = b.cylinder then none else some 3
              motion := if h + 1 = b.cylinder then .still else .seeking
              requests := (s.port p).requests ++ [.stepIn] } })
        ∧ (b.cylinder < h → exec (.stepIntervalExpiry p) s
          = .next { s with ports := s.ports.set p { s.port p with
              headCylinder := some (h - 1), settleTimer := some (s.port p).settleTime, stepped := true
              stepTimer := if h = b.cylinder + 1 then none else some 3
              motion := if h = b.cylinder + 1 then .still else .seeking
              requests := (s.port p).requests ++ [.stepOut] } }))
    ∧ ((s.port p).kind = .cartridge → (s.port p).ready = false →
        exec (.positionedReport p) s = .next { s with ports := s.ports.set p { s.port p with positioned := true } })

/-- Positioning ends at the event that completes its conditions (R9, R10): the settle timer or a ready report on a floppy port on its
cylinder, the track-0 report of a recalibration for cylinder 0 that finds the settle timer run out, the positioned or a ready report on a
cartridge port. The port is ON_BAND with at-start yes and the overtime timer stopped. With park-on-arrival set it parks, and the flag is
cleared (R65, R84; logs 6 and 7). Otherwise its job enters AWAITING_CHANNEL (R69), or, with none active, it is offered (R64). Through a
channel it holds the job goes on; a FREE channel, A before B, is granted to it, owned, ARMED and counted; with none FREE its wait joins
the list (R92, R94, R95). A job that goes on streams: its pass is set up with its parameters, those of the volume (log 35), the watchdog
starts, and a cartridge port counts the pass (R14, R15, R20, R69, R99). With retension due the stream is refused, the hold broken, the
channel given back, and the job waits for the retension, which starts at once with auto-retension on (R21, R75; log 23). -/
def Obligations.PositioningEnds : Prop :=
  ∀ (s u : State) (p : Fin 4) (b : BandAddress) (arrived : Port) (event : Instr), (s.port p).state = .positioning →
    (s.port p).band = some b → s.JobsSound →
    ((event = .settleExpiry p ∧ (s.port p).kind = .floppy ∧ (s.port p).settleTimer ≠ none ∧ (s.port p).ready = true
        ∧ (s.port p).spinUp = false ∧ (s.port p).motion = .still ∧ (s.port p).headCylinder = some b.cylinder
        ∧ arrived = { s.port p with settleTimer := none })
      ∨ (event = .readyReport p ∧ (s.port p).kind = .floppy ∧ ((s.port p).settleTimer = none ∨ (s.port p).stepped = false)
        ∧ (s.port p).motion = .still ∧ (s.port p).headCylinder = some b.cylinder
        ∧ arrived = { s.port p with ready := true, spinUp := false })
      ∨ (event = .track0Report p ∧ (s.port p).kind = .floppy ∧ (s.port p).motion = .recalibrating ∧ b.cylinder = 0
        ∧ (s.port p).ready = true ∧ (s.port p).spinUp = false ∧ ((s.port p).settleTimer = none ∨ (s.port p).stepped = false)
        ∧ arrived = { s.port p with headCylinder := some 0, motion := .still, stepTimer := none })
      ∨ (event = .positionedReport p ∧ (s.port p).kind = .cartridge ∧ (s.port p).ready = true ∧ arrived = { s.port p with positioned := true })
      ∨ (event = .readyReport p ∧ (s.port p).kind = .cartridge ∧ (s.port p).positioned = true
        ∧ arrived = { s.port p with ready := true, spinUp := false })) →
    u = { s with ports := s.ports.set p { arrived with state := .onBand, overtimeTimer := none, atStart := true } } →
    ∃ t, exec event s = .next t
      ∧ ((s.port p).parkOnArrival = true → t = { s with ports := s.ports.set p { (u.port p).parkStarted with parkOnArrival := false } })
      ∧ ((s.port p).parkOnArrival = false →
          (∀ j, s.activeJob p = some j → (j.state = .positioning ∨ j.state = .reseating) → u.AwaitsChannel t j)
          ∧ (s.activeJob p = none → u.Offers t p))

/-- A floppy park's steps, one at each end of the step interval (R18; counted by log 7), and the ends of a park and of a retension (R18,
R21, R64, R76): a track-0 report, a start report, a retension-complete report. The port is IDLE, and is offered: with no active job its
queued jobs are met in opening order (R9, R66, R69, R75, R94, R95; logs 23 and 35). A job in RETENSION_WAIT positions afresh. That the end
of a floppy park leaves the settle timer running is log 30; its expiry then, as outside any positioning, changes nothing else (R9). A
start report at any port but a cartridge port in PARKING, and a retension-complete report at any but one in RETENSIONING, as after its
watchdog has expired, is discarded (R5). -/
def Obligations.ParkAndRetensionEnd : Prop :=
  (∀ (s : State) (p : Fin 4),
    ((s.port p).kind ≠ .cartridge ∨ (s.port p).state ≠ .parking → exec (.startReport p) s = .next s)
    ∧ ((s.port p).kind ≠ .cartridge ∨ (s.port p).state ≠ .retensioning → exec (.retensionCompleteReport p) s = .next s))
  ∧ ∀ (s : State) (p : Fin 4), s.JobsSound →
    (∀ n, (s.port p).state = .parking → (s.port p).stepTimer = some n →
      exec (.stepIntervalExpiry p) s
        = .next { s with ports := s.ports.set p { s.port p with
            headCylinder := (s.port p).headCylinder.map (· - 1), settleTimer := some (s.port p).settleTime, stepTimer := some 3
            stepped := true, requests := (s.port p).requests ++ [.stepOut] } })
    ∧ (∀ n, (s.port p).state ≠ .positioning → (s.port p).settleTimer = some n →
      exec (.settleExpiry p) s = .next { s with ports := s.ports.set p { s.port p with settleTimer := none } })
    ∧ ((s.port p).state = .parking → (s.port p).kind = .floppy →
      ∃ t, exec (.track0Report p) s = .next t
        ∧ ({ s with ports := s.ports.set p { s.port p with
            state := .idle, overtimeTimer := none, stepTimer := none, headCylinder := some 0, motor := false, spinUp := false
            parkOnArrival := false
            requests := (s.port p).requests ++ if (s.port p).motor then [.motorOff] else [] } } : State).Offers t p)
    ∧ ((s.port p).state = .parking → (s.port p).kind = .cartridge →
        ∃ t, exec (.startReport p) s = .next t
          ∧ ({ s with ports := s.ports.set p { s.port p with
              state := .idle, overtimeTimer := none, parkOnArrival := false } } : State).Offers t p)
    ∧ ((s.port p).state = .retensioning → (s.port p).kind = .cartridge →
        ∀ u : State, u = { s with ports := s.ports.set p { s.port p with
            state := .idle, retensionWatchdog := none, passCount := 0, parkOnArrival := false } } →
          ∃ t, exec (.retensionCompleteReport p) s = .next t
            ∧ (∀ j m, s.activeJob p = some j → j.state = .retensionWait → s.medium j.handle = some m → u.Positions t j m)
            ∧ ((∀ j, s.activeJob p = some j → j.state ≠ .retensionWait) → u.Offers t p))

/-- The overtime and retension watchdog expiries (R11, R19, R22, R25, R66, R76) fault the port: every timer stopped, the motor off, no
band, at-start no, the pass count kept. A positioning's job fails with POSITION_FAULT and a retension's with RETENSION_FAULT, and its
notice posts at once; its hold is broken, and a channel it holds through a reseat is released (R96, R98; logs 23 and 35). Where no job
positions, a cancel having taken it (R84), or none waits for the retension, the port alone faults. That a positioning's fault asks a
cartridge drive no stop of its tape is log 39. -/
def Obligations.OvertimeFaults : Prop :=
  ∀ (s : State) (p : Fin 4) (faulted : Port), s.JobsSound →
    faulted = { s.port p with
      state := .faulted, band := none, motor := false, spinUp := false, atStart := false, settleTimer := none, overtimeTimer := none
      streamWatchdog := none, retensionWatchdog := none, stepTimer := none, motion := .still, parkOnArrival := false
      requests := (s.port p).requests ++ if (s.port p).motor then [.motorOff] else [] } →
    (∀ n, (s.port p).state = .parking → (s.port p).overtimeTimer = some n →
      exec (.parkOvertime p) s
        = .next { s with ports := s.ports.set p { faulted with
            fault := some .parkOvertime, headCylinder := none
            requests := faulted.requests ++ if (s.port p).kind = .cartridge then [.stopTape] else [] } })
    ∧ (∀ n j, (s.port p).state = .positioning → (s.port p).overtimeTimer = some n → s.activeJob p = some j →
        (j.state = .positioning ∨ j.state = .reseating) → j.ending = none → s.channelOf j.id = none →
        exec (.positionOvertime p) s
          = .next { s with
              ports := s.ports.set p { faulted with fault := some .positionOvertime, headCylinder := none }
              jobs := s.jobs.filter fun x => x.id != j.id
              waits := s.waits.filter (· != j.id)
              link := { s.link with
                reserved := s.link.reserved - 1
                responses := s.link.responses ++ [(j.decide (.failed .positionFault)).notice (.failed .positionFault) (s.bandEntries j)] } })
    ∧ (∀ n j (u : State), (s.port p).state = .positioning → (s.port p).overtimeTimer = some n → s.activeJob p = some j →
        (j.state = .positioning ∨ j.state = .reseating) →
        u = { s with ports := s.ports.set p { faulted with fault := some .positionOvertime, headCylinder := none } } →
        ∃ t v, exec (.positionOvertime p) s = .next t ∧ u.Stops v j (.failed .positionFault)
          ∧ v.Continues t (j.decide (.failed .positionFault)) (j.ending.getD (.failed .positionFault)))
    ∧ (∀ n, (s.port p).state = .positioning → (s.port p).overtimeTimer = some n →
        (∀ j, s.activeJob p = some j → j.state ≠ .positioning ∧ j.state ≠ .reseating) →
        exec (.positionOvertime p) s
          = .next { s with ports := s.ports.set p { faulted with fault := some .positionOvertime, headCylinder := none } })
    ∧ (∀ n j, (s.port p).state = .retensioning → (s.port p).kind = .cartridge → (s.port p).retensionWatchdog = some n →
        s.activeJob p = some j → j.state = .retensionWait → j.ending = none → s.channelOf j.id = none →
        exec (.retensionWatchdogExpiry p) s
          = .next { s with
              ports := s.ports.set p { faulted with fault := some .retensionOvertime, requests := faulted.requests ++ [.stopTape] }
              jobs := s.jobs.filter fun x => x.id != j.id
              waits := s.waits.filter (· != j.id)
              link := { s.link with
                reserved := s.link.reserved - 1
                responses := s.link.responses ++ [(j.decide (.failed .retensionFault)).notice (.failed .retensionFault) (s.bandEntries j)] } })
    ∧ (∀ n, (s.port p).state = .retensioning → (s.port p).kind = .cartridge → (s.port p).retensionWatchdog = some n →
        (∀ j, s.activeJob p = some j → j.state ≠ .retensionWait) →
        exec (.retensionWatchdogExpiry p) s
          = .next { s with ports := s.ports.set p { faulted with
              fault := some .retensionOvertime, requests := faulted.requests ++ [.stopTape] } })

/-- The stream watchdog (R15, R17, R25, R70, R77, R96, R98, R110): the stream ends as a fault, which counts as a pass and breaks the hold.
The sector in receipt is discarded, and the channel released. That a hold of 1 is broken without a decrement first is log 41. The port is
ON_BAND after a first fault; after a second it is FAULTED, and its job's ending is decided as FAILED, but for one decided before (log 17).
Then the job waits for the readings of its band, or, with none left (log 20), leaves where its ending is decided (R63, R65), and has its
pass judged where it is not (R72 to R74, R78 to R80, R152; logs 3, 6, 7, 9, 22, 23 and 35). -/
def Obligations.WatchdogFaults : Prop :=
  ∀ (s u : State) (p : Fin 4) (c : ChannelName) (j counted failed : Job) (n : Nat) (ended : Port), (s.port p).state = .streaming →
    (s.port p).streamWatchdog = some n → s.activeJob p = some j → s.channelOf j.id = some c → j.id ∉ s.waits → s.JobsSound → s.TableSound →
    ended = { s.port p with
      state := .onBand, streamWatchdog := none
      requests := (s.port p).requests ++ if (s.port p).kind = .cartridge then [.stopTape] else [] } →
    counted = { j.breakHold with
      passesRun := satSucc 15 j.passesRun, faults := satSucc 255 j.faults, phase := .draining
      consecutiveFaults := satSucc 2 j.consecutiveFaults } →
    failed = { counted with ending := some (j.ending.getD (.failed (if (s.port p).kind = .cartridge then .noMark else .noIndex))) } →
    (j.consecutiveFaults = 0 → u = { s.withJob counted with ports := s.ports.set p ended } →
      ∃ t v, exec (.streamWatchdogExpiry p) s = .next t ∧ (u.setChannel c (s.channel c).discarded).Released v c ∧ v.GoesOn t counted)
    ∧ (1 ≤ j.consecutiveFaults →
        u = { s.withJob failed with
              ports := s.ports.set p { ended.brokenOff with state := .faulted, fault := some .repeatedWatchdog } } →
        ∃ t v, exec (.streamWatchdogExpiry p) s = .next t ∧ (u.setChannel c (s.channel c).discarded).Released v c ∧ v.GoesOn t failed)

/-! ## The streams and the units -/

/-- A good header at a channel that captures, or that begins its FIRST capture with it (R99, R100, R103, R104): it is taken at the next
position below 40, and judged. In its band it joins the layout list, and then a stray id, a mismatched size or the lack of a FREE landing
place is counted, or the sector goes into receipt. Out of its band, a verified job counts a foreign header. The 41st header and those
after it are strays. A stream is seen by the ARMED or CAPTURING channel of its port (R112), and of two FREE places the first is taken
(R93). At an ARMED channel that captures by another rule than FIRST a header is passed over (R99). -/
def Obligations.GoodHeaderJudged : Prop :=
  (∀ (s : State) (p : Fin 4) (sees : ChannelName → Prop),
      (∀ c, sees c ↔ (s.channel c).port = some p ∧ ((s.channel c).state = .armed ∨ (s.channel c).state = .capturing)) →
      (s.streamChannel p = some .a ↔ sees .a) ∧ (s.streamChannel p = some .b ↔ sees .b ∧ ¬sees .a)
      ∧ (s.streamChannel p = none ↔ ¬sees .a ∧ ¬sees .b))
  ∧ (∀ ch : Channel,
      (ch.firstRule = true ↔ ∃ parameters, ch.parameters = some parameters ∧ parameters.kind = .floppy ∧ parameters.startRule = .first)
      ∧ (ch.freePlace = some .one ↔ ch.placeOne.condition = .free)
      ∧ (ch.freePlace = some .two ↔ ch.placeTwo.condition = .free ∧ ch.placeOne.condition ≠ .free)
      ∧ ∀ condition, ch.setCondition .one condition = { ch with placeOne := { ch.placeOne with condition := condition } }
        ∧ ch.setCondition .two condition = { ch with placeTwo := { ch.placeTwo with condition := condition } })
  ∧ (∀ (s : State) (p : Fin 4) (c : ChannelName) (cylinder head sector size : Nat), s.streamChannel p = some c →
      (s.channel c).state = .armed → (s.channel c).firstRule = false → exec (.goodHeader p cylinder head sector size) s = .next s)
  ∧ ∀ (s : State) (p : Fin 4) (c : ChannelName) (ch : Channel) (j seen : Job) (m : Medium) (cylinder head sector size : Nat),
    s.streamChannel p = some c → ch.receipt = none →
    ((s.channel c = ch ∧ ch.state = .capturing ∧ (ch.startId ≠ some sector ∨ (s.channel c).firstRule = false))
      ∨ ((s.channel c).state = .armed ∧ (s.channel c).firstRule = true
          ∧ ch = { s.channel c with state := .capturing, startId := some sector })) →
    ch.owner = some j.id → s.job j.id = some j → s.JobsSound → s.medium j.handle = some m →
    (40 ≤ ch.headersTaken →
      exec (.goodHeader p cylinder head sector size) s
        = .next (({ s with jobs := s.jobs.map fun x =>
              if x.id == j.id then { j with strayHeaders := satSucc 65535 j.strayHeaders } else x } : State).setChannel c ch))
    ∧ (ch.headersTaken < 40 → (m.kind = .cartridge ∨ (cylinder = j.cylinder ∧ head = j.head)) →
        seen = { j with layout := if j.layout.length < 40 then j.layout ++ [sector] else j.layout
                        verification := if m.kind = .cartridge then j.verification else .verified } →
        ∀ (counted : Job) (taken : Channel),
          ((counted = { seen with strayHeaders := satSucc 65535 j.strayHeaders } ∧ taken = { ch with headersTaken := ch.headersTaken + 1 }
              ∧ ¬(m.geometry.firstId ≤ sector ∧ sector < m.geometry.firstId + m.geometry.sectors))
            ∨ ((m.geometry.firstId ≤ sector ∧ sector < m.geometry.firstId + m.geometry.sectors)
              ∧ ((counted = { seen with sizeMismatches := satSucc 65535 j.sizeMismatches }
                    ∧ taken = { ch with headersTaken := ch.headersTaken + 1 } ∧ size ≠ m.geometry.sizeCode)
                ∨ (size = m.geometry.sizeCode
                  ∧ ((counted = { seen with overrun := satSucc 65535 j.overrun } ∧ taken = { ch with headersTaken := ch.headersTaken + 1 }
                        ∧ ch.freePlace = none)
                    ∨ ∃ n, ch.freePlace = some n ∧ counted = seen
                        ∧ taken = { ch.setCondition n .receiving with
                            headersTaken := ch.headersTaken + 1
                            receipt := some ⟨n, sector, size, ch.headersTaken + 1, false⟩ }))))) →
          exec (.goodHeader p cylinder head sector size) s
            = .next (({ s with jobs := s.jobs.map fun x => if x.id == j.id then counted else x } : State).setChannel c taken))
    ∧ (ch.headersTaken < 40 → m.kind ≠ .cartridge → ¬(cylinder = j.cylinder ∧ head = j.head) → j.verification = .verified →
        exec (.goodHeader p cylinder head sector size) s
          = .next (({ s with jobs := s.jobs.map fun x =>
                if x.id == j.id then { j with foreignHeaders := satSucc 65535 j.foreignHeaders } else x } : State).setChannel c
              { ch with headersTaken := ch.headersTaken + 1 }))

/-- The wrong band in a good header of a floppy pass, at a channel that captures or that begins its FIRST capture with it (R67, R68, R96,
R98, R100): the pass ends uncounted, the hold is broken and the channel released (logs 23 and 35). The first time, the job is RETRIED and
positions again, and its port recalibrates (R12); the second time, its ending is decided as FAILED with WRONG_BAND, and it leaves, when
the readings of its band are taken, if any is (R63, R65; logs 3, 6, 7, 20 and 35). -/
def Obligations.WrongBandHeader : Prop :=
  ∀ (s u : State) (p : Fin 4) (c : ChannelName) (ch : Channel) (j failed : Job) (m : Medium) (cylinder head sector size : Nat),
    s.streamChannel p = some c → ch.receipt = none →
    ((s.channel c = ch ∧ ch.state = .capturing ∧ (ch.startId ≠ some sector ∨ (s.channel c).firstRule = false))
      ∨ ((s.channel c).state = .armed ∧ (s.channel c).firstRule = true
          ∧ ch = { s.channel c with state := .capturing, startId := some sector })) →
    ch.headersTaken < 40 → ch.owner = some j.id → s.job j.id = some j → s.JobsSound → s.TableSound → s.medium j.handle = some m →
    m.kind ≠ .cartridge → (s.port p).kind = .floppy → (s.port p).state = .streaming → j.drive = p → j.id ∉ s.waits →
    ¬(cylinder = j.cylinder ∧ head = j.head) →
    u = ({ s.withJob j.breakHold with ports := s.ports.set p { s.port p with state := .onBand, streamWatchdog := none } } :
          State).setChannel c ch →
    failed = { j.breakHold with ending := some (j.ending.getD (.failed .wrongBand)), phase := .draining } →
    (j.verification = .unverified →
      ∃ v, u.Released v c
        ∧ exec (.goodHeader p cylinder head sector size) s
          = .next { v.withJob { j.breakHold with verification := .retried, state := .positioning } with
              ports := v.ports.set p { v.port p with
                state := .positioning, band := some ⟨j.cylinder, j.head⟩, headCylinder := none, overtimeTimer := some 10000
                positioned := false, motion := .recalibrating, stepped := true, settleTimer := some (v.port p).settleTime
                stepTimer := some 3, requests := (v.port p).requests ++ [.stepOut] } })
    ∧ (j.verification = .retried →
        ∃ t v, exec (.goodHeader p cylinder head sector size) s = .next t ∧ u.Released v c ∧ (v.withJob failed).GoesOn t failed)

/-- A bad header (R103, R105) and a data mark (R101, R106): the first is taken at the next position and counted, or is a stray beyond 40;
the second marks the sector in receipt. An absent data field (R93, R106, R122), as a header, a block mark or a band end mark meets a
sector in receipt whose data mark has not come: its place is FREE, and a header-only reading joins the input queue, or counts an overrun
where 60 stand there. What it met is then taken in its own right. With a capture end pending the pass ends normally instead (R16, R70,
R77, R95 to R97, R102): a channel kept is HELD with its end pending none, the model's choice (log 44), and a pass drained (log 20) is
judged, or its job leaves (R63 to R65, R72 to R74, R78 to R80, R152; logs 3, 6, 7, 9, 22, 23, 35 and 36). Under a pending cancel the
sector is discarded and the pass ends uncounted (R85, R110), with no header-only reading placed (log 19). Once the data mark of the sector
in receipt has come, a header, good or bad, changes nothing, and a block mark changes the watchdog alone, whatever end is pending: no rule
treats them there, and this is the model's choice (log 16). At a port whose stream no channel sees, each event of a stream changes nothing
(R112); nor does a bad header at an ARMED channel (R99), or a data mark or the end of a data field with no sector in receipt (R105). -/
def Obligations.BadHeaderDataMarkAndAbsentField : Prop :=
  (∀ s : State, s.headerOnlyCount = s.input.countP fun r => decide (r.data = none))
  ∧ (∀ (s : State) (p : Fin 4),
    (∀ (c : ChannelName) (j : Job), s.streamChannel p = some c → (s.channel c).state = .capturing → (s.channel c).receipt = none →
      (s.channel c).owner = some j.id → s.job j.id = some j → s.JobsSound →
      ((s.channel c).headersTaken < 40 →
        exec (.badHeader p) s
          = .next (({ s with jobs := s.jobs.map fun x =>
                if x.id == j.id then { j with headerFailures := satSucc 65535 j.headerFailures } else x } : State).setChannel c
              { s.channel c with headersTaken := (s.channel c).headersTaken + 1 }))
      ∧ (40 ≤ (s.channel c).headersTaken →
          exec (.badHeader p) s
            = .next { s with jobs := s.jobs.map fun x =>
                if x.id == j.id then { j with strayHeaders := satSucc 65535 j.strayHeaders } else x }))
    ∧ (∀ (c : ChannelName) (r : Receipt), s.streamChannel p = some c → (s.channel c).receipt = some r →
        exec (.dataMark p) s = .next (s.setChannel c { s.channel c with receipt := some { r with dataMark := true } }))
    ∧ (∀ c : ChannelName, s.streamChannel p = some c →
        ((s.channel c).state = .armed → exec (.badHeader p) s = .next s)
        ∧ ((s.channel c).receipt = none →
            exec (.dataMark p) s = .next s ∧ ∀ data check doubtful, exec (.dataFieldEnd p data check doubtful) s = .next s))
    ∧ (s.streamChannel p = none →
        exec (.badHeader p) s = .next s ∧ exec (.dataMark p) s = .next s
        ∧ (∀ cylinder head sector size, exec (.goodHeader p cylinder head sector size) s = .next s)
        ∧ (∀ data check doubtful, exec (.dataFieldEnd p data check doubtful) s = .next s))
    ∧ (∀ (c : ChannelName) (r : Receipt), s.streamChannel p = some c → (s.channel c).state = .capturing → (s.channel c).receipt = some r →
        r.dataMark = true →
        exec (.badHeader p) s = .next s
        ∧ (∀ cylinder head sector size, exec (.goodHeader p cylinder head sector size) s = .next s)
        ∧ ((s.port p).kind = .cartridge → (s.port p).state = .streaming →
            exec (.blockMarkReport p) s
              = .next { s with ports := s.ports.set p { s.port p with streamWatchdog := some (s.port p).markTimeout } })))
  ∧ (∀ (s : State) (p : Fin 4) (c : ChannelName) (j : Job) (r : Receipt) (parameters : PassParameters) (freed : Channel) (watched : State),
      s.streamChannel p = some c → (s.channel c).state = .capturing → (s.channel c).receipt = some r → r.dataMark = false →
      (s.channel c).endPending = none → (s.channel c).owner = some j.id → s.job j.id = some j → s.JobsSound →
      (s.channel c).parameters = some parameters → (s.port p).kind = .cartridge → (s.port p).state = .streaming →
      freed = { (s.channel c).setCondition r.place .free with receipt := none } →
      watched = { s with ports := s.ports.set p { s.port p with streamWatchdog := some (s.port p).markTimeout } } →
      (s.headerOnlyCount < 60 →
        exec (.blockMarkReport p) s
          = .next (({ watched with input := s.input ++ [
                { key := ⟨j.handle, j.cylinder, j.head, r.sector⟩, size := r.size, data := none, uncertain := []
                  moreUncertain := false, pass := parameters.pass, position := r.position }] } : State).setChannel c
              { freed with readingsPlaced := (s.channel c).readingsPlaced + 1 }))
      ∧ (60 ≤ s.headerOnlyCount →
          exec (.blockMarkReport p) s
            = .next (({ watched with jobs := s.jobs.map fun x =>
                  if x.id == j.id then { j with overrun := satSucc 65535 j.overrun } else x } : State).setChannel c freed)))
  ∧ (∀ (s absent : State) (p : Fin 4) (c : ChannelName) (j k : Job) (r : Receipt) (parameters : PassParameters) (freed : Channel) (met : Instr),
      s.streamChannel p = some c → (s.channel c).state = .capturing → (s.channel c).receipt = some r → r.dataMark = false →
      (s.channel c).owner = some j.id → s.job j.id = some j → s.JobsSound → s.TableSound →
      (s.channel c).parameters = some parameters → (s.port p).state = .streaming → j.drive = p →
      (met = .badHeader p ∨ (∃ cylinder head sector size, met = .goodHeader p cylinder head sector size)
        ∨ ((met = .blockMarkReport p ∨ met = .bandEndMark p) ∧ (s.port p).kind = .cartridge)) →
      freed = { (s.channel c).setCondition r.place .free with receipt := none } →
      ((s.headerOnlyCount < 60 ∧ k = j
          ∧ absent = ({ s with input := s.input ++ [
                { key := ⟨j.handle, j.cylinder, j.head, r.sector⟩, size := r.size, data := none, uncertain := []
                  moreUncertain := false, pass := parameters.pass, position := r.position }] } : State).setChannel c
              { freed with readingsPlaced := (s.channel c).readingsPlaced + 1 })
        ∨ (60 ≤ s.headerOnlyCount ∧ k = { j with overrun := satSucc 65535 j.overrun } ∧ absent = (s.withJob k).setChannel c freed)) →
      ((s.channel c).endPending = none → exec met s = exec met absent)
      ∧ ((s.channel c).endPending = some .captureEnd → ∃ t, exec met s = .next t ∧ absent.EndsPass t c k)
      ∧ ((s.channel c).endPending = some .cancel → ∃ t, exec met s = .next t ∧ (s.setChannel c freed).EndsCancelled t c j))

/-- The data check (R108): the remainder register starts at all ones, each byte enters most significant bit first, and at each bit the
register shifts left, with the polynomial added where the bit that leaves and the bit that enters differ; 16 bits and 2 bytes on a floppy,
32 bits and 4 bytes on a cartridge. The end of a data field (R102, R106 to R110): the sector's bytes stand in its landing frame and in no
other, the place is QUEUED, and its reading joins the input queue with the check computed over the bytes and the first 8 doubtful offsets.
With a capture end pending, the pass ends normally then (R16, R70, R77, R95 to R97, R102): a channel kept is HELD with its end pending
none, the model's choice (log 44), and a pass drained (log 20) is judged, or its job leaves (R63 to R65, R72 to R74, R78 to R80, R152;
logs 3, 6, 7, 9, 22, 23, 35 and 36). Under a pending cancel no reading is placed: the sector is discarded, its place is FREE, and the pass
ends uncounted with the channel given back (R85). The end is accepted whether or not the field's data mark came before it, and offsets
beyond the field are ignored (log 15). -/
def Obligations.DataFieldPlacesReading : Prop :=
  (∀ (bits : List Byte → List Bool) (next16 : BitVec 16 → Bool → BitVec 16) (next32 : BitVec 32 → Bool → BitVec 32),
    (∀ data, bits data = data.flatMap fun b => (List.range 8).map fun i => b.getMsbD i) →
    (∀ r b, next16 r b = if r.msb != b then (r <<< 1) ^^^ 0x1021#16 else r <<< 1) →
    (∀ r b, next32 r b = if r.msb != b then (r <<< 1) ^^^ 0x04C11DB7#32 else r <<< 1) →
    ∀ data, check16 data = (bits data).foldl next16 0xFFFF#16 ∧ check32 data = (bits data).foldl next32 0xFFFFFFFF#32
      ∧ dataCheck .floppy data = (check16 data).setWidth 32 ∧ dataCheck .cartridge data = check32 data)
  ∧ checkLength .floppy = 2 ∧ checkLength .cartridge = 4
  ∧ (sectorLength 0 = 128 ∧ sectorLength 1 = 256 ∧ sectorLength 2 = 512 ∧ sectorLength 3 = 1024)
  ∧ ∀ (s : State) (p : Fin 4) (c : ChannelName) (j : Job) (r : Receipt) (data : List Byte) (check : Word) (doubtful : List Nat),
    s.streamChannel p = some c → (s.channel c).receipt = some r → (s.channel c).owner = some j.id → s.job j.id = some j →
    (∀ (parameters : PassParameters) (offsets : List Nat) (checkBytes : Nat) (recorded computed : Word),
      (s.channel c).parameters = some parameters → data.length = sectorLength r.size → r.size ≤ 3 →
      ((s.port j.drive).kind = .cartridge ∧ checkBytes = 4 ∧ recorded = check ∧ computed = check32 data)
        ∨ ((s.port j.drive).kind = .floppy ∧ checkBytes = 2 ∧ recorded = (check.setWidth 16).setWidth 32
            ∧ computed = (check16 data).setWidth 32) →
      offsets.Pairwise (· < ·) → (∀ o, o ∈ offsets ↔ o ∈ doubtful ∧ o < sectorLength r.size + checkBytes) →
      ∃ (memory : Memory) (placed : State),
        placed = ({ s with
            memory := memory
            input := s.input ++ [
              { key := ⟨j.handle, j.cylinder, j.head, r.sector⟩, size := r.size
                data := some { clean := decide (computed = recorded), check := recorded, channel := c, place := r.place }
                uncertain := offsets.take 8, moreUncertain := decide (8 < offsets.length), pass := parameters.pass, position := r.position }] } :
              State).setChannel c { (s.channel c).setCondition r.place .queued with
                receipt := none, readingsPlaced := (s.channel c).readingsPlaced + 1 }
        ∧ (∀ i b, data[i]? = some b → memory.read (1024 * ((s.channel c).place r.place).frame + i) = b)
        ∧ (∀ a, ¬(1024 * ((s.channel c).place r.place).frame ≤ a ∧ a < 1024 * ((s.channel c).place r.place).frame + data.length) →
            memory.read a = s.memory.read a)
        ∧ ((s.channel c).endPending = none → exec (.dataFieldEnd p data check doubtful) s = .next placed)
        ∧ ((s.channel c).endPending = some .captureEnd → s.JobsSound → s.TableSound → (s.port j.drive).state = .streaming →
            ∃ t, exec (.dataFieldEnd p data check doubtful) s = .next t ∧ placed.EndsPass t c j))
    ∧ ((s.channel c).endPending = some .cancel → s.JobsSound → s.TableSound → (s.port j.drive).state = .streaming →
        ∃ t, exec (.dataFieldEnd p data check doubtful) s = .next t
          ∧ (s.setChannel c { (s.channel c).setCondition r.place .free with receipt := none }).EndsCancelled t c j)

/-- The reconciler takes the head reading (R123 to R131): header-only, it is counted; identical to a candidate, in check value and every
data byte (R116), it agrees, and narrows the uncertain positions of a candidate not pinned; and a distinct version joins an open entry
with room through a frame of the pool, replaces the weakest bad candidate of a full list if it is clean, or is dropped. Its landing place
is FREE with the frame the meeting leaves it, the entry derives its state anew if it is open, and the band's job counts. The frame a join
takes is the pool's head (log 9). Where the reading was the last of a pass that drains (log 20), the job leaves with the ending decided
before, or its pass is judged, and it closes, reseats or waits for its next pass (R63 to R65, R70, R72 to R74, R78 to R80, R152; logs 3,
6, 7, 22, 23, 35 and 36). -/
def Obligations.ReadingTaken : Prop :=
  (∀ s : State, s.input = [] → exec .takeReading s = .next s)
  ∧ (∀ top n : Nat, satSucc top n = if n < top then n + 1 else n)
  ∧ (∀ (e : Entry) (k : Nat) (c : Candidate), e.candidates[k]? = some c → e.agreeOf k = c.agree ∧ e.frameOf k = some c.frame)
  ∧ (∀ (j : Job) (dropped progress : Bool),
      j.noteTaken dropped progress = { j with
        readingsTaken := satSucc 65535 j.readingsTaken, progress := j.progress || progress
        readingsDropped := if dropped then satSucc 65535 j.readingsDropped else j.readingsDropped })
  ∧ (∀ (c : Candidate) (r : Reading) (pinned : Bool),
      c.agreeWith r pinned = { c with
        agree := satSucc 255 c.agree
        uncertain := if pinned then c.uncertain else c.uncertain.filter fun o => decide (o ∈ r.uncertain)
        moreUncertain := if pinned then c.moreUncertain else c.moreUncertain && r.moreUncertain })
  ∧ (∀ (r : Reading) (d : ReadingData) (frame : Nat),
      r.candidate d frame = { frame := frame, check := d.check, clean := d.clean, origin := .read, agree := 1, firstPass := r.pass
                              uncertain := r.uncertain, moreUncertain := r.moreUncertain })
  ∧ (∀ (s : State) (frame size : Nat),
      s.frameData frame size = (List.range (sectorLength size)).map fun i => s.memory.read (1024 * frame + i))
  ∧ (∀ (s : State) (e : Entry) (bytes : List Byte) (check : Word),
      (∀ k, s.identical e bytes check = some k ↔
        ∃ c, e.candidates[k]? = some c ∧ (c.check = check ∧ s.frameData c.frame e.size = bytes)
          ∧ ∀ i x, i < k → e.candidates[i]? = some x → ¬(x.check = check ∧ s.frameData x.frame e.size = bytes))
      ∧ (s.identical e bytes check = none ↔ ∀ x ∈ e.candidates, ¬(x.check = check ∧ s.frameData x.frame e.size = bytes)))
  ∧ (∀ e : Entry, (∀ k, e.weakestBad = some k ↔ e.LowestAgree (fun c => c.clean = false) k)
      ∧ (e.weakestBad = none ↔ ∀ c ∈ e.candidates, c.clean = true))
  ∧ ∀ (s : State) (r : Reading) (rest : List Reading) (e : Entry) (j : Job), s.input = r :: rest → s.entry r.key = some e →
      s.bandJob r.key.handle r.key.cylinder r.key.head = some j → s.JobsSound → s.TableSound →
      (r.data = none → ∀ after, after = ({ e with headerOnly := satSucc 255 e.headerOnly } : Entry).deriveIfOpen →
        ∀ counted, counted = j.noteTaken false (after.state != e.state) →
          ∃ t, exec .takeReading s = .next t
            ∧ ({ s with
                input := rest
                entries := s.entries.map fun x => if x.key == r.key then after else x
                jobs := s.jobs.map fun x => if x.id == j.id then counted else x } : State).GoesOn t counted)
      ∧ (∀ (d : ReadingData) (frame left : Nat) (met after : Entry) (pool : List Nat) (dropped agreed : Bool), r.data = some d →
          frame = ((s.channel d.channel).place d.place).frame →
          ((∃ k, s.identical e (s.frameData frame e.size) d.check = some k
              ∧ met = { e with candidates := e.candidates.modify k fun x => x.agreeWith r e.pinned }
              ∧ left = frame ∧ pool = s.pool ∧ dropped = false ∧ agreed = decide (e.agreeOf k < 255))
            ∨ (s.identical e (s.frameData frame e.size) d.check = none ∧ agreed = false
              ∧ ((e.state.closed = true ∧ met = { e with lateVariants := satSucc 255 e.lateVariants }
                    ∧ left = frame ∧ pool = s.pool ∧ dropped = true)
                ∨ (e.state.closed = false
                  ∧ ((e.pinned = false ∧ e.candidates.length < 4 ∧ s.pool = left :: pool ∧ dropped = false
                        ∧ met = { e with candidates := e.candidates ++ [r.candidate d frame] })
                    ∨ (∃ k, e.pinned = false ∧ 4 ≤ e.candidates.length ∧ d.clean = true ∧ e.weakestBad = some k ∧ e.frameOf k = some left
                        ∧ pool = s.pool ∧ dropped = false
                        ∧ met = { e with candidates := e.candidates.eraseIdx k ++ [r.candidate d frame] })
                    ∨ (dropped = true ∧ left = frame ∧ pool = s.pool ∧ met = { e with dropped := satSucc 255 e.dropped }
                        ∧ (e.pinned = true ∨ (e.candidates.length < 4 ∧ s.pool = [])
                          ∨ (4 ≤ e.candidates.length ∧ (d.clean = false ∨ e.weakestBad = none)))))))) →
          after = ({ met with readings := satSucc 65535 e.readings } : Entry).deriveIfOpen →
          ∀ counted, counted = j.noteTaken dropped (agreed || after.state != e.state) →
            ∃ t, exec .takeReading s = .next t
              ∧ (({ s with
                  input := rest
                  pool := pool
                  entries := s.entries.map fun x => if x.key == r.key then after else x
                  jobs := s.jobs.map fun x => if x.id == j.id then counted else x } :
                    State).updateChannel d.channel fun ch => ch.setPlace d.place ⟨left, .free⟩).GoesOn t counted))

/-- The derivation of an open entry from its candidates (R119, R120), which a closed entry never runs: two clean candidates make
it DISPUTED; one makes it SETTLED on that one from the quorum's agree count on and TENTATIVE below; none makes it WEAK while it has
candidates, and without any HEADER_ONLY or EXPECTED. -/
def Obligations.EntryDerivation : Prop :=
  ∀ e : Entry,
    (e.state ∈ [.settled, .synthesized, .amended] → e.deriveIfOpen = e)
    ∧ (e.state ∉ [.settled, .synthesized, .amended] →
        (2 ≤ e.candidates.countP Candidate.clean →
          e.deriveIfOpen = { e with state := .disputed, best := none, settledQuorum := none, amendSource := none })
        ∧ (∀ k c, e.candidates.countP Candidate.clean = 1 → e.candidates[k]? = some c → c.clean = true →
            (e.quorum ≤ c.agree →
              e.deriveIfOpen = { e with state := .settled, best := some k, settledQuorum := some e.quorum, amendSource := none })
            ∧ (c.agree < e.quorum →
                e.deriveIfOpen = { e with state := .tentative, best := some k, settledQuorum := none, amendSource := none }))
        ∧ (e.candidates.countP Candidate.clean = 0 →
            e.deriveIfOpen = { e with
              best := none, settledQuorum := none, amendSource := none
              state := if e.candidates ≠ [] then .weak else if 0 < e.headerOnly then .headerOnly else .expected }))

/-- The vote (R145 to R147). Its inputs are the READ candidates, oldest first, each with its place in the list, its data bytes and then
the bytes of its check value, most significant first, its agree count as weight and its uncertain positions. At a position the inputs that
do not list it vote, or all where every one lists it; the value with the greatest sum of weights wins, and of several such values the one
the oldest of their voters gives. The position is contested where its voters give more than one value, and a tie where another value
shares the greatest sum. The positions, as many as an input has bytes, are voted in ascending order, each on its own bytes. -/
def Obligations.VoteAtPosition : Prop :=
  (∀ (inputs : List SynthInput) (position : Nat),
    ((∃ i ∈ inputs, position ∉ i.uncertain) → voters inputs position = inputs.filter fun i => decide (position ∉ i.uncertain))
    ∧ ((∀ i ∈ inputs, position ∈ i.uncertain) → voters inputs position = inputs))
  ∧ (∀ (voting : List SynthInput) (weight : Byte → Nat), (∀ b, weight b = ((voting.filter fun i => i.here == b).map SynthInput.weight).sum) →
      (∀ (before after : List SynthInput) (i : SynthInput), voting = before ++ i :: after →
        (∀ v ∈ voting, weight v.here ≤ weight i.here) → (∀ v ∈ before, weight v.here < weight i.here) → winner voting = i.here)
      ∧ (contestedAt voting = true ↔ ∃ v ∈ voting, ∃ w ∈ voting, v.here ≠ w.here)
      ∧ (tiedAt voting = true ↔ ∃ v ∈ voting, v.here ≠ winner voting ∧ ∀ w ∈ voting, weight w.here ≤ weight v.here))
  ∧ (∀ (n position : Nat) (inputs : List SynthInput) (voting : Nat → List SynthInput),
      (∀ i, voting i = voters (inputs.map fun x => { x with bytes := x.bytes.drop i }) (position + i)) →
      voteFrom n position inputs
        = { bytes := (List.range n).map fun i => winner (voting i)
            contested := (List.range n).countP fun i => contestedAt (voting i)
            ties := (List.range n).countP fun i => tiedAt (voting i) })
  ∧ (∀ (i : SynthInput) (b : Byte) (rest : List Byte), i.bytes = b :: rest → i.here = b)
  ∧ votePositions [] = 0 ∧ (∀ (i : SynthInput) (rest : List SynthInput), votePositions (i :: rest) = i.bytes.length)
  ∧ (∀ a b c d : Byte, checkOfBytes [a, b, c, d] = a ++ b ++ c ++ d ∧ checkOfBytes [a, b] = 0#16 ++ a ++ b)
  ∧ (∀ (s : State) (kind : PortKind) (size : Nat) (candidates : List Candidate),
      s.synthInputs kind size candidates 0 = (candidates.zipIdx.filter fun x => x.1.origin == .read).map fun x =>
        { index := x.2
          bytes := (List.range (sectorLength size)).map (fun i => s.memory.read (1024 * x.1.frame + i))
            ++ (if kind = .cartridge then [x.1.check.extractLsb' 24 8, x.1.check.extractLsb' 16 8] else [])
            ++ [x.1.check.extractLsb' 8 8, x.1.check.extractLsb' 0 8]
          weight := x.1.agree, uncertain := x.1.uncertain })

/-- The end of a vote (R147 to R153, R160), made whole in this step, with its tallies left in the unit (log 25). Every voted byte stands
at its position in the work frame, the check value's after the data, as far as the frame reaches, and no other byte of the buffer changes.
A bad result is discarded: its frame returns to the pool. A clean one is tested again: no entry, a job of the band (for a SYNTHESIZE), a
pin or a state that is neither WEAK nor EXHAUSTED discards it. One that equals a candidate, in check value and every data byte, ends as a
bad one does (R116, R151). Otherwise it joins the entry as a SYNTH candidate and best, in a full list in place of the weakest bad one,
whose frame returns (log 9), and the entry is SYNTHESIZED. That no size code or volume kind is tested is log 43. A SYNTHESIZE is answered,
its key reported through its ALIAS; a close goes on, or leaves where it was stopped (R81, R152; logs 3, 6, 7, 35 and 36). It marks what it
passes (R79), with a WEAK entry skipped that was pinned (log 18), and its end breaks a hold (R80; log 22). Then the waiting requests are
judged, oldest first, until one starts or none is left (R143, R144; log 31): a SYNTHESIZE that fails at its start is refused, a close's
request reported. At an idle unit nothing happens. -/
def Obligations.VoteEnds : Prop :=
  (∀ s : State, s.synth.inHand = none → exec .voteEnd s = .next s)
  ∧ ∀ (s voted left : State) (r : SynthRequest) (via : Option Via) (inputs : List SynthInput) (frame n : Nat) (v : Vote)
      (recorded computed : Word) (code : AnswerCode) (body : List Word) (alike : Entry → Candidate → Prop),
      s.synth.inHand = some r → s.synth.inputs = some inputs → s.synth.workFrame = some frame → s.JobsSound → s.TableSound →
      n = votePositions inputs - checkLength s.synth.kind → v = voteFrom (votePositions inputs) 0 inputs →
      recorded = checkOfBytes (v.bytes.drop n) → computed = dataCheck s.synth.kind (v.bytes.take n) →
      voted = { s.writeFrame frame 0 v.bytes with
        synth := { s.synth with inHand := none, workFrame := none, inputs := none, contested := v.contested, ties := v.ties } } →
      (∀ e c, alike e c ↔ c.check = recorded
        ∧ ∀ i, i < sectorLength e.size → voted.memory.read (1024 * c.frame + i) = voted.memory.read (1024 * frame + i)) →
      ((computed ≠ recorded ∧ left = { voted with pool := frame :: s.pool } ∧ code = .synthFailed
          ∧ body = [computed, recorded, numberWord v.contested, numberWord v.ties])
        ∨ (computed = recorded
          ∧ ((∃ reason, left = { voted with pool := frame :: s.pool } ∧ code = .synthFailed
                ∧ body = [numberWord reason, numberWord v.contested, numberWord v.ties]
                ∧ ((s.entry r.key = none ∧ reason = 26)
                  ∨ ∃ e, s.entry r.key = some e
                    ∧ ((r.source.isCommand = true ∧ s.bandJob r.key.handle r.key.cylinder r.key.head ≠ none ∧ reason = 22)
                      ∨ ((r.source.isCommand = false ∨ s.bandJob r.key.handle r.key.cylinder r.key.head = none)
                        ∧ ((e.pinned = true ∧ reason = 30)
                          ∨ (e.pinned = false ∧ e.state ∉ [.weak, .exhausted] ∧ reason = 31))))))
            ∨ (∃ e c, s.entry r.key = some e
                ∧ (r.source.isCommand = false ∨ s.bandJob r.key.handle r.key.cylinder r.key.head = none)
                ∧ e.pinned = false ∧ e.state ∈ [.weak, .exhausted] ∧ c ∈ e.candidates ∧ alike e c
                ∧ left = { voted with pool := frame :: s.pool } ∧ code = .synthFailed
                ∧ body = [computed, recorded, numberWord v.contested, numberWord v.ties])
            ∨ (∃ e candidate, s.entry r.key = some e
                ∧ (r.source.isCommand = false ∨ s.bandJob r.key.handle r.key.cylinder r.key.head = none)
                ∧ e.pinned = false ∧ e.state ∈ [.weak, .exhausted] ∧ (∀ c ∈ e.candidates, ¬alike e c) ∧ code = .done
                ∧ candidate = { frame := frame, check := recorded, clean := true, origin := .synth, agree := 0, firstPass := 0
                                uncertain := [], moreUncertain := false }
                ∧ ((e.candidates.length < 4
                    ∧ left = { voted with entries := s.entries.map fun x =>
                        if x.key == r.key then
                          { e with state := .synthesized, best := some e.candidates.length, settledQuorum := none, amendSource := none
                                   candidates := e.candidates ++ [candidate] }
                        else x }
                    ∧ body = [r.key.wordVia via, numberWord e.candidates.length, numberWord (e.candidates.length + 1), absentWord,
                              numberWord v.contested, numberWord v.ties])
                  ∨ (∃ k gone, e.candidates.length = 4 ∧ e.candidates[k]? = some gone ∧ gone.clean = false
                    ∧ (∀ i x, e.candidates[i]? = some x → x.clean = false → gone.agree < x.agree ∨ (gone.agree = x.agree ∧ k ≤ i))
                    ∧ left = { voted with
                        pool := gone.frame :: s.pool
                        entries := s.entries.map fun x =>
                          if x.key == r.key then
                            { e with state := .synthesized, best := some 3, settledQuorum := none, amendSource := none
                                     candidates := e.candidates.eraseIdx k ++ [candidate] }
                          else x }
                    ∧ body = [r.key.wordVia via, 3, 4, numberWord k, numberWord v.contested, numberWord v.ties])))))) →
      (∀ q tag, r.source = .command q tag via →
        ∃ t, exec .voteEnd s = .next t
          ∧ ({ left with link := { s.link with
                reserved := s.link.reserved - 1, responses := s.link.responses ++ [answerOf q tag 40 code body] } } : State).Serves t)
      ∧ (∀ id, r.source = .close id → ∃ t u, exec .voteEnd s = .next t ∧ left.CloseResumes u id r.key 0 ∧ u.Serves t)
      ∧ (∀ i b, v.bytes[i]? = some b → i < 1024 → voted.memory.read (1024 * frame + i) = b)
      ∧ (∀ a, ¬(1024 * frame ≤ a ∧ a < 1024 * frame + min v.bytes.length 1024) → voted.memory.read a = s.memory.read a)
      ∧ v.bytes.length = votePositions inputs

/-! ## What every step keeps -/

/-- The laws of the tables hold after reset, and so do those of the frames and of the link port. -/
def Obligations.ResetSound : Prop := State.reset.TablesSound ∧ State.reset.FramesSound ∧ State.reset.LinkSound

/-- Every step keeps the laws of the tables: port configurations and pass counts in their ranges (R2, R20), sound volume and
profile tables (R28, R30, R36, R39, R41, R46, R47), at most 8 jobs of different ids and bands (R58, R61), at most 1024 table
entries in strict key order of at most 4 candidates (R113, R115), and buffer memory in its one form. -/
def Obligations.TablesKept : Prop := ∀ s t : State, s.TablesSound → step s = .next t → t.TablesSound

/-- Every step keeps each of the 2048 frames in exactly one use: the pool, a landing place, a candidate, the inbound frame or the
work frame (R155, R156). -/
def Obligations.FramesKept : Prop := ∀ s t : State, s.TablesSound → s.FramesSound → step s = .next t → t.FramesSound

/-- Every step keeps the laws of the link port (R187, R191, R193): a place is reserved for each job's notice and each SYNTHESIZE
that has not answered, filled and reserved places do not exceed 32, lists and assemblies stay within 8 and 3, and every response has
2 to 16 words. -/
def Obligations.LinkKept : Prop :=
  ∀ s t : State, s.TablesSound → s.FramesSound → s.LinkSound → step s = .next t → t.LinkSound
end

