-- ==== Sys2Proof/Laws/Codec.lean ====
section
/-! SUPPORT. The layouts of command records (R201 to R203): what `HostCommand.record` writes, `Record.command` reads. -/

namespace Sys2Proof

set_option linter.unusedSimpArgs false

@[simp] theorem Record.ofFields_code (code tag : BitVec 8) (h : BitVec 6) (cy : BitVec 10) (hd : BitVec 6) (sec sel : BitVec 8) (a b : Word) :
    (Record.ofFields code tag h cy hd sec sel a b).code = code := by
  show BitVec.extractLsb' 24 8 (code ++ tag ++ h ++ cy) = code
  simp (disch := decide) only [BitVec.extractLsb'_append_eq_of_le, BitVec.extractLsb'_append_eq_of_add_le, BitVec.extractLsb'_eq_self, Nat.reduceSub]

@[simp] theorem Record.ofFields_tag (code tag : BitVec 8) (h : BitVec 6) (cy : BitVec 10) (hd : BitVec 6) (sec sel : BitVec 8) (a b : Word) :
    (Record.ofFields code tag h cy hd sec sel a b).tag = tag := by
  show BitVec.extractLsb' 16 8 (code ++ tag ++ h ++ cy) = tag
  simp (disch := decide) only [BitVec.extractLsb'_append_eq_of_le, BitVec.extractLsb'_append_eq_of_add_le, BitVec.extractLsb'_eq_self, Nat.reduceSub]

@[simp] theorem Record.ofFields_handle (code tag : BitVec 8) (h : BitVec 6) (cy : BitVec 10) (hd : BitVec 6) (sec sel : BitVec 8) (a b : Word) :
    (Record.ofFields code tag h cy hd sec sel a b).handle = h := by
  show BitVec.extractLsb' 10 6 (code ++ tag ++ h ++ cy) = h
  simp (disch := decide) only [BitVec.extractLsb'_append_eq_of_le, BitVec.extractLsb'_append_eq_of_add_le, BitVec.extractLsb'_eq_self, Nat.reduceSub]

@[simp] theorem Record.ofFields_cylinder (code tag : BitVec 8) (h : BitVec 6) (cy : BitVec 10) (hd : BitVec 6) (sec sel : BitVec 8) (a b : Word) :
    (Record.ofFields code tag h cy hd sec sel a b).cylinder = cy := by
  show BitVec.extractLsb' 0 10 (code ++ tag ++ h ++ cy) = cy
  simp (disch := decide) only [BitVec.extractLsb'_append_eq_of_le, BitVec.extractLsb'_append_eq_of_add_le, BitVec.extractLsb'_eq_self, Nat.reduceSub]

@[simp] theorem Record.ofFields_head (code tag : BitVec 8) (h : BitVec 6) (cy : BitVec 10) (hd : BitVec 6) (sec sel : BitVec 8) (a b : Word) :
    (Record.ofFields code tag h cy hd sec sel a b).head = hd := by
  show BitVec.extractLsb' 26 6 (hd ++ sec ++ sel ++ 0#10) = hd
  simp (disch := decide) only [BitVec.extractLsb'_append_eq_of_le, BitVec.extractLsb'_append_eq_of_add_le, BitVec.extractLsb'_eq_self, Nat.reduceSub]

@[simp] theorem Record.ofFields_sector (code tag : BitVec 8) (h : BitVec 6) (cy : BitVec 10) (hd : BitVec 6) (sec sel : BitVec 8) (a b : Word) :
    (Record.ofFields code tag h cy hd sec sel a b).sector = sec := by
  show BitVec.extractLsb' 18 8 (hd ++ sec ++ sel ++ 0#10) = sec
  simp (disch := decide) only [BitVec.extractLsb'_append_eq_of_le, BitVec.extractLsb'_append_eq_of_add_le, BitVec.extractLsb'_eq_self, Nat.reduceSub]

@[simp] theorem Record.ofFields_selector (code tag : BitVec 8) (h : BitVec 6) (cy : BitVec 10) (hd : BitVec 6) (sec sel : BitVec 8) (a b : Word) :
    (Record.ofFields code tag h cy hd sec sel a b).selector = sel := by
  show BitVec.extractLsb' 10 8 (hd ++ sec ++ sel ++ 0#10) = sel
  simp (disch := decide) only [BitVec.extractLsb'_append_eq_of_le, BitVec.extractLsb'_append_eq_of_add_le, BitVec.extractLsb'_eq_self, Nat.reduceSub]

@[simp] theorem Record.ofFields_w2 (code tag : BitVec 8) (h : BitVec 6) (cy : BitVec 10) (hd : BitVec 6) (sec sel : BitVec 8) (a b : Word) :
    (Record.ofFields code tag h cy hd sec sel a b).w2 = a := rfl

@[simp] theorem Record.ofFields_w3 (code tag : BitVec 8) (h : BitVec 6) (cy : BitVec 10) (hd : BitVec 6) (sec sel : BitVec 8) (a b : Word) :
    (Record.ofFields code tag h cy hd sec sel a b).w3 = b := rfl

/-- DRIVE CONFIG parameters read back. -/
@[simp] theorem ConfigField.ofWords_words (f : ConfigField) : ConfigField.ofWords f.wordA f.wordB = f := by
  obtain ⟨kind, settle, index, mark, interval, auto⟩ := f
  simp only [ConfigField.ofWords, ConfigField.wordA, ConfigField.wordB, ConfigField.mk.injEq]
  refine ⟨?_, ?_, ?_, ?_, ?_, ?_⟩
  · show BitVec.extractLsb' 30 2 (kind ++ settle ++ index ++ mark) = kind
    simp (disch := decide) only [BitVec.extractLsb'_append_eq_of_le, BitVec.extractLsb'_append_eq_of_add_le, BitVec.extractLsb'_eq_self, Nat.reduceSub]
  · show BitVec.extractLsb' 24 6 (kind ++ settle ++ index ++ mark) = settle
    simp (disch := decide) only [BitVec.extractLsb'_append_eq_of_le, BitVec.extractLsb'_append_eq_of_add_le, BitVec.extractLsb'_eq_self, Nat.reduceSub]
  · show BitVec.extractLsb' 13 11 (kind ++ settle ++ index ++ mark) = index
    simp (disch := decide) only [BitVec.extractLsb'_append_eq_of_le, BitVec.extractLsb'_append_eq_of_add_le, BitVec.extractLsb'_eq_self, Nat.reduceSub]
  · show BitVec.extractLsb' 0 13 (kind ++ settle ++ index ++ mark) = mark
    simp (disch := decide) only [BitVec.extractLsb'_append_eq_of_le, BitVec.extractLsb'_append_eq_of_add_le, BitVec.extractLsb'_eq_self, Nat.reduceSub]
  · show BitVec.extractLsb' 25 7 (interval ++ BitVec.ofBool auto ++ 0#24) = interval
    simp (disch := decide) only [BitVec.extractLsb'_append_eq_of_le, BitVec.extractLsb'_append_eq_of_add_le, BitVec.extractLsb'_eq_self, Nat.reduceSub]
  · show (interval ++ BitVec.ofBool auto ++ 0#24).getLsbD 24 = auto
    simp only [BitVec.getLsbD_append]
    simp

/-- The geometry word read back. -/
@[simp] theorem GeometryWord.ofWord_word (f : GeometryWord) : GeometryWord.ofWord f.word = f := by
  obtain ⟨cylinders, heads, sectors, firstId⟩ := f
  simp only [GeometryWord.ofWord, GeometryWord.word, GeometryWord.mk.injEq]
  refine ⟨?_, ?_, ?_, ?_⟩
  · show BitVec.extractLsb' 21 11 (cylinders ++ heads ++ sectors ++ firstId ++ 0#1) = cylinders
    simp (disch := decide) only [BitVec.extractLsb'_append_eq_of_le, BitVec.extractLsb'_append_eq_of_add_le, BitVec.extractLsb'_eq_self, Nat.reduceSub]
  · show BitVec.extractLsb' 15 6 (cylinders ++ heads ++ sectors ++ firstId ++ 0#1) = heads
    simp (disch := decide) only [BitVec.extractLsb'_append_eq_of_le, BitVec.extractLsb'_append_eq_of_add_le, BitVec.extractLsb'_eq_self, Nat.reduceSub]
  · show BitVec.extractLsb' 9 6 (cylinders ++ heads ++ sectors ++ firstId ++ 0#1) = sectors
    simp (disch := decide) only [BitVec.extractLsb'_append_eq_of_le, BitVec.extractLsb'_append_eq_of_add_le, BitVec.extractLsb'_eq_self, Nat.reduceSub]
  · show BitVec.extractLsb' 1 8 (cylinders ++ heads ++ sectors ++ firstId ++ 0#1) = firstId
    simp (disch := decide) only [BitVec.extractLsb'_append_eq_of_le, BitVec.extractLsb'_append_eq_of_add_le, BitVec.extractLsb'_eq_self, Nat.reduceSub]

/-- The medium word read back. -/
@[simp] theorem MediumField.ofWord_word (f : MediumField) : MediumField.ofWord f.word = f := by
  obtain ⟨size, encoding, rate, cls, level, drive, kind⟩ := f
  simp only [MediumField.ofWord, MediumField.word, MediumField.mk.injEq]
  refine ⟨?_, ?_, ?_, ?_, ?_, ?_, ?_⟩
  · show BitVec.extractLsb' 30 2 (size ++ encoding ++ rate ++ cls ++ level ++ drive ++ kind ++ 0#15) = size
    simp (disch := decide) only [BitVec.extractLsb'_append_eq_of_le, BitVec.extractLsb'_append_eq_of_add_le, BitVec.extractLsb'_eq_self, Nat.reduceSub]
  · show BitVec.extractLsb' 28 2 (size ++ encoding ++ rate ++ cls ++ level ++ drive ++ kind ++ 0#15) = encoding
    simp (disch := decide) only [BitVec.extractLsb'_append_eq_of_le, BitVec.extractLsb'_append_eq_of_add_le, BitVec.extractLsb'_eq_self, Nat.reduceSub]
  · show BitVec.extractLsb' 26 2 (size ++ encoding ++ rate ++ cls ++ level ++ drive ++ kind ++ 0#15) = rate
    simp (disch := decide) only [BitVec.extractLsb'_append_eq_of_le, BitVec.extractLsb'_append_eq_of_add_le, BitVec.extractLsb'_eq_self, Nat.reduceSub]
  · show BitVec.extractLsb' 23 3 (size ++ encoding ++ rate ++ cls ++ level ++ drive ++ kind ++ 0#15) = cls
    simp (disch := decide) only [BitVec.extractLsb'_append_eq_of_le, BitVec.extractLsb'_append_eq_of_add_le, BitVec.extractLsb'_eq_self, Nat.reduceSub]
  · show BitVec.extractLsb' 20 3 (size ++ encoding ++ rate ++ cls ++ level ++ drive ++ kind ++ 0#15) = level
    simp (disch := decide) only [BitVec.extractLsb'_append_eq_of_le, BitVec.extractLsb'_append_eq_of_add_le, BitVec.extractLsb'_eq_self, Nat.reduceSub]
  · show BitVec.extractLsb' 17 3 (size ++ encoding ++ rate ++ cls ++ level ++ drive ++ kind ++ 0#15) = drive
    simp (disch := decide) only [BitVec.extractLsb'_append_eq_of_le, BitVec.extractLsb'_append_eq_of_add_le, BitVec.extractLsb'_eq_self, Nat.reduceSub]
  · show BitVec.extractLsb' 15 2 (size ++ encoding ++ rate ++ cls ++ level ++ drive ++ kind ++ 0#15) = kind
    simp (disch := decide) only [BitVec.extractLsb'_append_eq_of_le, BitVec.extractLsb'_append_eq_of_add_le, BitVec.extractLsb'_eq_self, Nat.reduceSub]

/-- The ALIAS parameters read back. -/
@[simp] theorem ViewField.ofWord_word (f : ViewField) : ViewField.ofWord f.word = f := by
  obtain ⟨target, offset, limit, level⟩ := f
  simp only [ViewField.ofWord, ViewField.word, ViewField.mk.injEq]
  refine ⟨?_, ?_, ?_, ?_⟩
  · show BitVec.extractLsb' 26 6 (target ++ offset ++ limit ++ level ++ 0#2) = target
    simp (disch := decide) only [BitVec.extractLsb'_append_eq_of_le, BitVec.extractLsb'_append_eq_of_add_le, BitVec.extractLsb'_eq_self, Nat.reduceSub]
  · show BitVec.extractLsb' 16 10 (target ++ offset ++ limit ++ level ++ 0#2) = offset
    simp (disch := decide) only [BitVec.extractLsb'_append_eq_of_le, BitVec.extractLsb'_append_eq_of_add_le, BitVec.extractLsb'_eq_self, Nat.reduceSub]
  · show BitVec.extractLsb' 5 11 (target ++ offset ++ limit ++ level ++ 0#2) = limit
    simp (disch := decide) only [BitVec.extractLsb'_append_eq_of_le, BitVec.extractLsb'_append_eq_of_add_le, BitVec.extractLsb'_eq_self, Nat.reduceSub]
  · show BitVec.extractLsb' 2 3 (target ++ offset ++ limit ++ level ++ 0#2) = level
    simp (disch := decide) only [BitVec.extractLsb'_append_eq_of_le, BitVec.extractLsb'_append_eq_of_add_le, BitVec.extractLsb'_eq_self, Nat.reduceSub]

/-- The attribute word read back. -/
@[simp] theorem AttributeField.ofWord_word (f : AttributeField) : AttributeField.ofWord f.word = f := by
  obtain ⟨passLimit, quorum, tolerance, escalate, startFirst, reseat, park, autoSynthesize⟩ := f
  simp only [AttributeField.ofWord, AttributeField.word, AttributeField.mk.injEq]
  refine ⟨?_, ?_, ?_, ?_, ?_, ?_, ?_, ?_⟩
  · show BitVec.extractLsb' 28 4 (passLimit ++ quorum ++ tolerance ++ BitVec.ofBool escalate ++ BitVec.ofBool startFirst ++ BitVec.ofBool reseat ++ BitVec.ofBool park ++ BitVec.ofBool autoSynthesize ++ 0#17) = passLimit
    simp (disch := decide) only [BitVec.extractLsb'_append_eq_of_le, BitVec.extractLsb'_append_eq_of_add_le, BitVec.extractLsb'_eq_self, Nat.reduceSub]
  · show BitVec.extractLsb' 25 3 (passLimit ++ quorum ++ tolerance ++ BitVec.ofBool escalate ++ BitVec.ofBool startFirst ++ BitVec.ofBool reseat ++ BitVec.ofBool park ++ BitVec.ofBool autoSynthesize ++ 0#17) = quorum
    simp (disch := decide) only [BitVec.extractLsb'_append_eq_of_le, BitVec.extractLsb'_append_eq_of_add_le, BitVec.extractLsb'_eq_self, Nat.reduceSub]
  · show BitVec.extractLsb' 22 3 (passLimit ++ quorum ++ tolerance ++ BitVec.ofBool escalate ++ BitVec.ofBool startFirst ++ BitVec.ofBool reseat ++ BitVec.ofBool park ++ BitVec.ofBool autoSynthesize ++ 0#17) = tolerance
    simp (disch := decide) only [BitVec.extractLsb'_append_eq_of_le, BitVec.extractLsb'_append_eq_of_add_le, BitVec.extractLsb'_eq_self, Nat.reduceSub]
  · show (passLimit ++ quorum ++ tolerance ++ BitVec.ofBool escalate ++ BitVec.ofBool startFirst ++ BitVec.ofBool reseat ++ BitVec.ofBool park ++ BitVec.ofBool autoSynthesize ++ 0#17).getLsbD 21 = escalate
    simp only [BitVec.getLsbD_append]
    simp
  · show (passLimit ++ quorum ++ tolerance ++ BitVec.ofBool escalate ++ BitVec.ofBool startFirst ++ BitVec.ofBool reseat ++ BitVec.ofBool park ++ BitVec.ofBool autoSynthesize ++ 0#17).getLsbD 20 = startFirst
    simp only [BitVec.getLsbD_append]
    simp
  · show (passLimit ++ quorum ++ tolerance ++ BitVec.ofBool escalate ++ BitVec.ofBool startFirst ++ BitVec.ofBool reseat ++ BitVec.ofBool park ++ BitVec.ofBool autoSynthesize ++ 0#17).getLsbD 19 = reseat
    simp only [BitVec.getLsbD_append]
    simp
  · show (passLimit ++ quorum ++ tolerance ++ BitVec.ofBool escalate ++ BitVec.ofBool startFirst ++ BitVec.ofBool reseat ++ BitVec.ofBool park ++ BitVec.ofBool autoSynthesize ++ 0#17).getLsbD 18 = park
    simp only [BitVec.getLsbD_append]
    simp
  · show (passLimit ++ quorum ++ tolerance ++ BitVec.ofBool escalate ++ BitVec.ofBool startFirst ++ BitVec.ofBool reseat ++ BitVec.ofBool park ++ BitVec.ofBool autoSynthesize ++ 0#17).getLsbD 17 = autoSynthesize
    simp only [BitVec.getLsbD_append]
    simp

/-- The match fields read back from the record of a SET PROFILE. -/
@[simp] theorem MatchField.ofRecord_ofFields (code tag : BitVec 8) (h : BitVec 6) (sec sel : BitVec 8) (f : MatchField) (b : Word) :
    MatchField.ofRecord (Record.ofFields code tag h f.cylinder f.head sec sel f.word b) = f := by
  obtain ⟨cls, classMask, cylinder, cylinderMask, head, anyHead⟩ := f
  simp only [MatchField.ofRecord, Record.ofFields_w2, Record.ofFields_cylinder, Record.ofFields_head]
  simp only [MatchField.word, MatchField.mk.injEq]
  refine ⟨?_, ?_, trivial, ?_, trivial, ?_⟩
  · show BitVec.extractLsb' 29 3 (cls ++ classMask ++ cylinderMask ++ BitVec.ofBool anyHead ++ 0#15) = cls
    simp (disch := decide) only [BitVec.extractLsb'_append_eq_of_le, BitVec.extractLsb'_append_eq_of_add_le, BitVec.extractLsb'_eq_self, Nat.reduceSub]
  · show BitVec.extractLsb' 26 3 (cls ++ classMask ++ cylinderMask ++ BitVec.ofBool anyHead ++ 0#15) = classMask
    simp (disch := decide) only [BitVec.extractLsb'_append_eq_of_le, BitVec.extractLsb'_append_eq_of_add_le, BitVec.extractLsb'_eq_self, Nat.reduceSub]
  · show BitVec.extractLsb' 16 10 (cls ++ classMask ++ cylinderMask ++ BitVec.ofBool anyHead ++ 0#15) = cylinderMask
    simp (disch := decide) only [BitVec.extractLsb'_append_eq_of_le, BitVec.extractLsb'_append_eq_of_add_le, BitVec.extractLsb'_eq_self, Nat.reduceSub]
  · show (cls ++ classMask ++ cylinderMask ++ BitVec.ofBool anyHead ++ 0#15).getLsbD 15 = anyHead
    simp only [BitVec.getLsbD_append]
    simp

/-- A small parameter read back from its word. -/
theorem extract_setWidth {w : Nat} (x : BitVec w) (h : w ≤ 32) : (x.setWidth 32).extractLsb' 0 w = x := by
  apply BitVec.eq_of_toNat_eq
  have h32 : x.toNat < 4294967296 := lt_of_lt_of_le x.isLt (Nat.pow_le_pow_right (by decide) h)
  simp [Nat.mod_eq_of_lt h32, Nat.mod_eq_of_lt x.isLt]

theorem HostCommand.record_code (tag : BitVec 8) (c : HostCommand) : (c.record tag).code = c.code := by
  cases c <;> simp only [HostCommand.record, Record.ofFields_code]

theorem HostCommand.record_tag (tag : BitVec 8) (c : HostCommand) : (c.record tag).tag = tag := by
  cases c <;> simp only [HostCommand.record, Record.ofFields_tag]

/-- The code of a record that names no command is read as such. -/
theorem Record.command_unknown (r : Record) (h : namesCommand r.code = false) : r.command = .unknown r.code := by
  simp only [namesCommand, commandCodes, List.contains_eq_mem, decide_eq_false_iff_not, List.mem_cons, List.not_mem_nil, or_false,
    not_or] at h
  have hn : ∀ n : Nat, n < 256 → r.code.toNat = n → r.code = BitVec.ofNat 8 n := by
    intro n _ e
    rw [← e]
    simp
  unfold Record.command
  split <;> first
    | rfl
    | (rename_i e; have := hn _ (by decide) e; simp_all)

/-- What the intake reads in the record of a command is that command. -/
theorem HostCommand.command_record (tag : BitVec 8) (c : HostCommand) (h : c.wellFormed = true) : (c.record tag).command = c := by
  cases c
  case unknown code =>
    have hc : ((HostCommand.unknown code).record tag).code = code := HostCommand.record_code tag _
    rw [Record.command_unknown, hc]
    simpa [hc, HostCommand.wellFormed] using h
  all_goals
    simp [HostCommand.record, Record.command, HostCommand.code, Record.band, Record.key, extract_setWidth]

end Sys2Proof
end

