-- ==== Sys2Proof/Laws/Formats.lean ====
section
/-! SUPPORT. Field layouts as numbers: what joined bit fields are worth (11; Machine/Formats.lean, Machine/Flags.lean). -/

namespace Sys2Proof.Laws

/-- Two joined fields as a number: the first stands above the second. -/
theorem toNat_joined {n m : Nat} (x : BitVec n) (y : BitVec m) : (x ++ y).toNat = x.toNat * 2 ^ m + y.toNat := by
  rw [BitVec.toNat_append, ← Nat.shiftLeft_add_eq_or_of_lt y.isLt, Nat.shiftLeft_eq]

/-- A flag as a one-bit field. -/
theorem toNat_flag (b : Bool) : (BitVec.ofBool b).toNat = b.toNat := by cases b <;> rfl

/-- A flag is worth at most 1. -/
theorem toNat_flag_lt (b : Bool) : b.toNat < 2 := by cases b <;> decide

end Sys2Proof.Laws
end

