-- ==== Sys2Proof/Laws/Frames.lean ====
section
/-! SUPPORT. The frames at the RESET line (R138, R155): none is lost, and the pool holds all but those of the landing places. -/

namespace Sys2Proof.Machine

@[simp] theorem afterResetLine_pool (s : State) : s.afterResetLine.pool = s.framesOut ++ s.pool := rfl
@[simp] theorem afterResetLine_memory (s : State) : s.afterResetLine.memory = s.memory := rfl
@[simp] theorem afterResetLine_pending (s : State) : s.afterResetLine.pending = s.pending := rfl

theorem afterResetLine_frames (s : State) : s.afterResetLine.allFrames.Perm s.allFrames := by
  unfold State.allFrames
  show (s.framesOut ++ s.pool ++ _ ++ []).Perm _
  rw [List.append_nil]
  refine (List.Perm.append_right _ List.perm_append_comm).trans ?_
  rw [List.append_assoc, List.append_assoc]
  exact List.Perm.append_left _ List.perm_append_comm

theorem afterResetLine_pool_length (s : State) (h : s.FramesSound) : s.afterResetLine.pool.length = 2044 := by
  have := h.uses.length_eq
  unfold State.allFrames at this
  simp at this ⊢
  omega

end Sys2Proof.Machine
end

