-- ==== Sys2Proof/Laws/State.lean ====
section
/-! SUPPORT. One lemma for each field of the state under each update of a field. -/

namespace Sys2Proof.Machine

variable (s : State)

/-! ## setLink -/

@[simp] theorem setLink_link (v : Link) : (s.setLink v).link = v := rfl
@[simp] theorem setLink_ports (v : Link) : (s.setLink v).ports = s.ports := rfl
@[simp] theorem setLink_volumes (v : Link) : (s.setLink v).volumes = s.volumes := rfl
@[simp] theorem setLink_profiles (v : Link) : (s.setLink v).profiles = s.profiles := rfl
@[simp] theorem setLink_jobs (v : Link) : (s.setLink v).jobs = s.jobs := rfl
@[simp] theorem setLink_nextJobId (v : Link) : (s.setLink v).nextJobId = s.nextJobId := rfl
@[simp] theorem setLink_channelA (v : Link) : (s.setLink v).channelA = s.channelA := rfl
@[simp] theorem setLink_channelB (v : Link) : (s.setLink v).channelB = s.channelB := rfl
@[simp] theorem setLink_waits (v : Link) : (s.setLink v).waits = s.waits := rfl
@[simp] theorem setLink_input (v : Link) : (s.setLink v).input = s.input := rfl
@[simp] theorem setLink_entries (v : Link) : (s.setLink v).entries = s.entries := rfl
@[simp] theorem setLink_synth (v : Link) : (s.setLink v).synth = s.synth := rfl
@[simp] theorem setLink_pool (v : Link) : (s.setLink v).pool = s.pool := rfl
@[simp] theorem setLink_memory (v : Link) : (s.setLink v).memory = s.memory := rfl
@[simp] theorem setLink_transfer (v : Link) : (s.setLink v).transfer = s.transfer := rfl
@[simp] theorem setLink_closing (v : Link) : (s.setLink v).closing = s.closing := rfl
@[simp] theorem setLink_pending (v : Link) : (s.setLink v).pending = s.pending := rfl

/-! ## setPorts -/

@[simp] theorem setPorts_link (v : Four Port) : (s.setPorts v).link = s.link := rfl
@[simp] theorem setPorts_ports (v : Four Port) : (s.setPorts v).ports = v := rfl
@[simp] theorem setPorts_volumes (v : Four Port) : (s.setPorts v).volumes = s.volumes := rfl
@[simp] theorem setPorts_profiles (v : Four Port) : (s.setPorts v).profiles = s.profiles := rfl
@[simp] theorem setPorts_jobs (v : Four Port) : (s.setPorts v).jobs = s.jobs := rfl
@[simp] theorem setPorts_nextJobId (v : Four Port) : (s.setPorts v).nextJobId = s.nextJobId := rfl
@[simp] theorem setPorts_channelA (v : Four Port) : (s.setPorts v).channelA = s.channelA := rfl
@[simp] theorem setPorts_channelB (v : Four Port) : (s.setPorts v).channelB = s.channelB := rfl
@[simp] theorem setPorts_waits (v : Four Port) : (s.setPorts v).waits = s.waits := rfl
@[simp] theorem setPorts_input (v : Four Port) : (s.setPorts v).input = s.input := rfl
@[simp] theorem setPorts_entries (v : Four Port) : (s.setPorts v).entries = s.entries := rfl
@[simp] theorem setPorts_synth (v : Four Port) : (s.setPorts v).synth = s.synth := rfl
@[simp] theorem setPorts_pool (v : Four Port) : (s.setPorts v).pool = s.pool := rfl
@[simp] theorem setPorts_memory (v : Four Port) : (s.setPorts v).memory = s.memory := rfl
@[simp] theorem setPorts_transfer (v : Four Port) : (s.setPorts v).transfer = s.transfer := rfl
@[simp] theorem setPorts_closing (v : Four Port) : (s.setPorts v).closing = s.closing := rfl
@[simp] theorem setPorts_pending (v : Four Port) : (s.setPorts v).pending = s.pending := rfl

/-! ## setVolumes -/

@[simp] theorem setVolumes_link (v : Vector VolumeEntry 32) : (s.setVolumes v).link = s.link := rfl
@[simp] theorem setVolumes_ports (v : Vector VolumeEntry 32) : (s.setVolumes v).ports = s.ports := rfl
@[simp] theorem setVolumes_volumes (v : Vector VolumeEntry 32) : (s.setVolumes v).volumes = v := rfl
@[simp] theorem setVolumes_profiles (v : Vector VolumeEntry 32) : (s.setVolumes v).profiles = s.profiles := rfl
@[simp] theorem setVolumes_jobs (v : Vector VolumeEntry 32) : (s.setVolumes v).jobs = s.jobs := rfl
@[simp] theorem setVolumes_nextJobId (v : Vector VolumeEntry 32) : (s.setVolumes v).nextJobId = s.nextJobId := rfl
@[simp] theorem setVolumes_channelA (v : Vector VolumeEntry 32) : (s.setVolumes v).channelA = s.channelA := rfl
@[simp] theorem setVolumes_channelB (v : Vector VolumeEntry 32) : (s.setVolumes v).channelB = s.channelB := rfl
@[simp] theorem setVolumes_waits (v : Vector VolumeEntry 32) : (s.setVolumes v).waits = s.waits := rfl
@[simp] theorem setVolumes_input (v : Vector VolumeEntry 32) : (s.setVolumes v).input = s.input := rfl
@[simp] theorem setVolumes_entries (v : Vector VolumeEntry 32) : (s.setVolumes v).entries = s.entries := rfl
@[simp] theorem setVolumes_synth (v : Vector VolumeEntry 32) : (s.setVolumes v).synth = s.synth := rfl
@[simp] theorem setVolumes_pool (v : Vector VolumeEntry 32) : (s.setVolumes v).pool = s.pool := rfl
@[simp] theorem setVolumes_memory (v : Vector VolumeEntry 32) : (s.setVolumes v).memory = s.memory := rfl
@[simp] theorem setVolumes_transfer (v : Vector VolumeEntry 32) : (s.setVolumes v).transfer = s.transfer := rfl
@[simp] theorem setVolumes_closing (v : Vector VolumeEntry 32) : (s.setVolumes v).closing = s.closing := rfl
@[simp] theorem setVolumes_pending (v : Vector VolumeEntry 32) : (s.setVolumes v).pending = s.pending := rfl

/-! ## setProfiles -/

@[simp] theorem setProfiles_link (v : ProfileTable) : (s.setProfiles v).link = s.link := rfl
@[simp] theorem setProfiles_ports (v : ProfileTable) : (s.setProfiles v).ports = s.ports := rfl
@[simp] theorem setProfiles_volumes (v : ProfileTable) : (s.setProfiles v).volumes = s.volumes := rfl
@[simp] theorem setProfiles_profiles (v : ProfileTable) : (s.setProfiles v).profiles = v := rfl
@[simp] theorem setProfiles_jobs (v : ProfileTable) : (s.setProfiles v).jobs = s.jobs := rfl
@[simp] theorem setProfiles_nextJobId (v : ProfileTable) : (s.setProfiles v).nextJobId = s.nextJobId := rfl
@[simp] theorem setProfiles_channelA (v : ProfileTable) : (s.setProfiles v).channelA = s.channelA := rfl
@[simp] theorem setProfiles_channelB (v : ProfileTable) : (s.setProfiles v).channelB = s.channelB := rfl
@[simp] theorem setProfiles_waits (v : ProfileTable) : (s.setProfiles v).waits = s.waits := rfl
@[simp] theorem setProfiles_input (v : ProfileTable) : (s.setProfiles v).input = s.input := rfl
@[simp] theorem setProfiles_entries (v : ProfileTable) : (s.setProfiles v).entries = s.entries := rfl
@[simp] theorem setProfiles_synth (v : ProfileTable) : (s.setProfiles v).synth = s.synth := rfl
@[simp] theorem setProfiles_pool (v : ProfileTable) : (s.setProfiles v).pool = s.pool := rfl
@[simp] theorem setProfiles_memory (v : ProfileTable) : (s.setProfiles v).memory = s.memory := rfl
@[simp] theorem setProfiles_transfer (v : ProfileTable) : (s.setProfiles v).transfer = s.transfer := rfl
@[simp] theorem setProfiles_closing (v : ProfileTable) : (s.setProfiles v).closing = s.closing := rfl
@[simp] theorem setProfiles_pending (v : ProfileTable) : (s.setProfiles v).pending = s.pending := rfl

/-! ## setJobs -/

@[simp] theorem setJobs_link (v : List Job) : (s.setJobs v).link = s.link := rfl
@[simp] theorem setJobs_ports (v : List Job) : (s.setJobs v).ports = s.ports := rfl
@[simp] theorem setJobs_volumes (v : List Job) : (s.setJobs v).volumes = s.volumes := rfl
@[simp] theorem setJobs_profiles (v : List Job) : (s.setJobs v).profiles = s.profiles := rfl
@[simp] theorem setJobs_jobs (v : List Job) : (s.setJobs v).jobs = v := rfl
@[simp] theorem setJobs_nextJobId (v : List Job) : (s.setJobs v).nextJobId = s.nextJobId := rfl
@[simp] theorem setJobs_channelA (v : List Job) : (s.setJobs v).channelA = s.channelA := rfl
@[simp] theorem setJobs_channelB (v : List Job) : (s.setJobs v).channelB = s.channelB := rfl
@[simp] theorem setJobs_waits (v : List Job) : (s.setJobs v).waits = s.waits := rfl
@[simp] theorem setJobs_input (v : List Job) : (s.setJobs v).input = s.input := rfl
@[simp] theorem setJobs_entries (v : List Job) : (s.setJobs v).entries = s.entries := rfl
@[simp] theorem setJobs_synth (v : List Job) : (s.setJobs v).synth = s.synth := rfl
@[simp] theorem setJobs_pool (v : List Job) : (s.setJobs v).pool = s.pool := rfl
@[simp] theorem setJobs_memory (v : List Job) : (s.setJobs v).memory = s.memory := rfl
@[simp] theorem setJobs_transfer (v : List Job) : (s.setJobs v).transfer = s.transfer := rfl
@[simp] theorem setJobs_closing (v : List Job) : (s.setJobs v).closing = s.closing := rfl
@[simp] theorem setJobs_pending (v : List Job) : (s.setJobs v).pending = s.pending := rfl

/-! ## setNextJobId -/

@[simp] theorem setNextJobId_link (v : Nat) : (s.setNextJobId v).link = s.link := rfl
@[simp] theorem setNextJobId_ports (v : Nat) : (s.setNextJobId v).ports = s.ports := rfl
@[simp] theorem setNextJobId_volumes (v : Nat) : (s.setNextJobId v).volumes = s.volumes := rfl
@[simp] theorem setNextJobId_profiles (v : Nat) : (s.setNextJobId v).profiles = s.profiles := rfl
@[simp] theorem setNextJobId_jobs (v : Nat) : (s.setNextJobId v).jobs = s.jobs := rfl
@[simp] theorem setNextJobId_nextJobId (v : Nat) : (s.setNextJobId v).nextJobId = v := rfl
@[simp] theorem setNextJobId_channelA (v : Nat) : (s.setNextJobId v).channelA = s.channelA := rfl
@[simp] theorem setNextJobId_channelB (v : Nat) : (s.setNextJobId v).channelB = s.channelB := rfl
@[simp] theorem setNextJobId_waits (v : Nat) : (s.setNextJobId v).waits = s.waits := rfl
@[simp] theorem setNextJobId_input (v : Nat) : (s.setNextJobId v).input = s.input := rfl
@[simp] theorem setNextJobId_entries (v : Nat) : (s.setNextJobId v).entries = s.entries := rfl
@[simp] theorem setNextJobId_synth (v : Nat) : (s.setNextJobId v).synth = s.synth := rfl
@[simp] theorem setNextJobId_pool (v : Nat) : (s.setNextJobId v).pool = s.pool := rfl
@[simp] theorem setNextJobId_memory (v : Nat) : (s.setNextJobId v).memory = s.memory := rfl
@[simp] theorem setNextJobId_transfer (v : Nat) : (s.setNextJobId v).transfer = s.transfer := rfl
@[simp] theorem setNextJobId_closing (v : Nat) : (s.setNextJobId v).closing = s.closing := rfl
@[simp] theorem setNextJobId_pending (v : Nat) : (s.setNextJobId v).pending = s.pending := rfl

/-! ## setChannelA -/

@[simp] theorem setChannelA_link (v : Channel) : (s.setChannelA v).link = s.link := rfl
@[simp] theorem setChannelA_ports (v : Channel) : (s.setChannelA v).ports = s.ports := rfl
@[simp] theorem setChannelA_volumes (v : Channel) : (s.setChannelA v).volumes = s.volumes := rfl
@[simp] theorem setChannelA_profiles (v : Channel) : (s.setChannelA v).profiles = s.profiles := rfl
@[simp] theorem setChannelA_jobs (v : Channel) : (s.setChannelA v).jobs = s.jobs := rfl
@[simp] theorem setChannelA_nextJobId (v : Channel) : (s.setChannelA v).nextJobId = s.nextJobId := rfl
@[simp] theorem setChannelA_channelA (v : Channel) : (s.setChannelA v).channelA = v := rfl
@[simp] theorem setChannelA_channelB (v : Channel) : (s.setChannelA v).channelB = s.channelB := rfl
@[simp] theorem setChannelA_waits (v : Channel) : (s.setChannelA v).waits = s.waits := rfl
@[simp] theorem setChannelA_input (v : Channel) : (s.setChannelA v).input = s.input := rfl
@[simp] theorem setChannelA_entries (v : Channel) : (s.setChannelA v).entries = s.entries := rfl
@[simp] theorem setChannelA_synth (v : Channel) : (s.setChannelA v).synth = s.synth := rfl
@[simp] theorem setChannelA_pool (v : Channel) : (s.setChannelA v).pool = s.pool := rfl
@[simp] theorem setChannelA_memory (v : Channel) : (s.setChannelA v).memory = s.memory := rfl
@[simp] theorem setChannelA_transfer (v : Channel) : (s.setChannelA v).transfer = s.transfer := rfl
@[simp] theorem setChannelA_closing (v : Channel) : (s.setChannelA v).closing = s.closing := rfl
@[simp] theorem setChannelA_pending (v : Channel) : (s.setChannelA v).pending = s.pending := rfl

/-! ## setChannelB -/

@[simp] theorem setChannelB_link (v : Channel) : (s.setChannelB v).link = s.link := rfl
@[simp] theorem setChannelB_ports (v : Channel) : (s.setChannelB v).ports = s.ports := rfl
@[simp] theorem setChannelB_volumes (v : Channel) : (s.setChannelB v).volumes = s.volumes := rfl
@[simp] theorem setChannelB_profiles (v : Channel) : (s.setChannelB v).profiles = s.profiles := rfl
@[simp] theorem setChannelB_jobs (v : Channel) : (s.setChannelB v).jobs = s.jobs := rfl
@[simp] theorem setChannelB_nextJobId (v : Channel) : (s.setChannelB v).nextJobId = s.nextJobId := rfl
@[simp] theorem setChannelB_channelA (v : Channel) : (s.setChannelB v).channelA = s.channelA := rfl
@[simp] theorem setChannelB_channelB (v : Channel) : (s.setChannelB v).channelB = v := rfl
@[simp] theorem setChannelB_waits (v : Channel) : (s.setChannelB v).waits = s.waits := rfl
@[simp] theorem setChannelB_input (v : Channel) : (s.setChannelB v).input = s.input := rfl
@[simp] theorem setChannelB_entries (v : Channel) : (s.setChannelB v).entries = s.entries := rfl
@[simp] theorem setChannelB_synth (v : Channel) : (s.setChannelB v).synth = s.synth := rfl
@[simp] theorem setChannelB_pool (v : Channel) : (s.setChannelB v).pool = s.pool := rfl
@[simp] theorem setChannelB_memory (v : Channel) : (s.setChannelB v).memory = s.memory := rfl
@[simp] theorem setChannelB_transfer (v : Channel) : (s.setChannelB v).transfer = s.transfer := rfl
@[simp] theorem setChannelB_closing (v : Channel) : (s.setChannelB v).closing = s.closing := rfl
@[simp] theorem setChannelB_pending (v : Channel) : (s.setChannelB v).pending = s.pending := rfl

/-! ## setWaits -/

@[simp] theorem setWaits_link (v : List Nat) : (s.setWaits v).link = s.link := rfl
@[simp] theorem setWaits_ports (v : List Nat) : (s.setWaits v).ports = s.ports := rfl
@[simp] theorem setWaits_volumes (v : List Nat) : (s.setWaits v).volumes = s.volumes := rfl
@[simp] theorem setWaits_profiles (v : List Nat) : (s.setWaits v).profiles = s.profiles := rfl
@[simp] theorem setWaits_jobs (v : List Nat) : (s.setWaits v).jobs = s.jobs := rfl
@[simp] theorem setWaits_nextJobId (v : List Nat) : (s.setWaits v).nextJobId = s.nextJobId := rfl
@[simp] theorem setWaits_channelA (v : List Nat) : (s.setWaits v).channelA = s.channelA := rfl
@[simp] theorem setWaits_channelB (v : List Nat) : (s.setWaits v).channelB = s.channelB := rfl
@[simp] theorem setWaits_waits (v : List Nat) : (s.setWaits v).waits = v := rfl
@[simp] theorem setWaits_input (v : List Nat) : (s.setWaits v).input = s.input := rfl
@[simp] theorem setWaits_entries (v : List Nat) : (s.setWaits v).entries = s.entries := rfl
@[simp] theorem setWaits_synth (v : List Nat) : (s.setWaits v).synth = s.synth := rfl
@[simp] theorem setWaits_pool (v : List Nat) : (s.setWaits v).pool = s.pool := rfl
@[simp] theorem setWaits_memory (v : List Nat) : (s.setWaits v).memory = s.memory := rfl
@[simp] theorem setWaits_transfer (v : List Nat) : (s.setWaits v).transfer = s.transfer := rfl
@[simp] theorem setWaits_closing (v : List Nat) : (s.setWaits v).closing = s.closing := rfl
@[simp] theorem setWaits_pending (v : List Nat) : (s.setWaits v).pending = s.pending := rfl

/-! ## setInput -/

@[simp] theorem setInput_link (v : List Reading) : (s.setInput v).link = s.link := rfl
@[simp] theorem setInput_ports (v : List Reading) : (s.setInput v).ports = s.ports := rfl
@[simp] theorem setInput_volumes (v : List Reading) : (s.setInput v).volumes = s.volumes := rfl
@[simp] theorem setInput_profiles (v : List Reading) : (s.setInput v).profiles = s.profiles := rfl
@[simp] theorem setInput_jobs (v : List Reading) : (s.setInput v).jobs = s.jobs := rfl
@[simp] theorem setInput_nextJobId (v : List Reading) : (s.setInput v).nextJobId = s.nextJobId := rfl
@[simp] theorem setInput_channelA (v : List Reading) : (s.setInput v).channelA = s.channelA := rfl
@[simp] theorem setInput_channelB (v : List Reading) : (s.setInput v).channelB = s.channelB := rfl
@[simp] theorem setInput_waits (v : List Reading) : (s.setInput v).waits = s.waits := rfl
@[simp] theorem setInput_input (v : List Reading) : (s.setInput v).input = v := rfl
@[simp] theorem setInput_entries (v : List Reading) : (s.setInput v).entries = s.entries := rfl
@[simp] theorem setInput_synth (v : List Reading) : (s.setInput v).synth = s.synth := rfl
@[simp] theorem setInput_pool (v : List Reading) : (s.setInput v).pool = s.pool := rfl
@[simp] theorem setInput_memory (v : List Reading) : (s.setInput v).memory = s.memory := rfl
@[simp] theorem setInput_transfer (v : List Reading) : (s.setInput v).transfer = s.transfer := rfl
@[simp] theorem setInput_closing (v : List Reading) : (s.setInput v).closing = s.closing := rfl
@[simp] theorem setInput_pending (v : List Reading) : (s.setInput v).pending = s.pending := rfl

/-! ## setEntries -/

@[simp] theorem setEntries_link (v : List Entry) : (s.setEntries v).link = s.link := rfl
@[simp] theorem setEntries_ports (v : List Entry) : (s.setEntries v).ports = s.ports := rfl
@[simp] theorem setEntries_volumes (v : List Entry) : (s.setEntries v).volumes = s.volumes := rfl
@[simp] theorem setEntries_profiles (v : List Entry) : (s.setEntries v).profiles = s.profiles := rfl
@[simp] theorem setEntries_jobs (v : List Entry) : (s.setEntries v).jobs = s.jobs := rfl
@[simp] theorem setEntries_nextJobId (v : List Entry) : (s.setEntries v).nextJobId = s.nextJobId := rfl
@[simp] theorem setEntries_channelA (v : List Entry) : (s.setEntries v).channelA = s.channelA := rfl
@[simp] theorem setEntries_channelB (v : List Entry) : (s.setEntries v).channelB = s.channelB := rfl
@[simp] theorem setEntries_waits (v : List Entry) : (s.setEntries v).waits = s.waits := rfl
@[simp] theorem setEntries_input (v : List Entry) : (s.setEntries v).input = s.input := rfl
@[simp] theorem setEntries_entries (v : List Entry) : (s.setEntries v).entries = v := rfl
@[simp] theorem setEntries_synth (v : List Entry) : (s.setEntries v).synth = s.synth := rfl
@[simp] theorem setEntries_pool (v : List Entry) : (s.setEntries v).pool = s.pool := rfl
@[simp] theorem setEntries_memory (v : List Entry) : (s.setEntries v).memory = s.memory := rfl
@[simp] theorem setEntries_transfer (v : List Entry) : (s.setEntries v).transfer = s.transfer := rfl
@[simp] theorem setEntries_closing (v : List Entry) : (s.setEntries v).closing = s.closing := rfl
@[simp] theorem setEntries_pending (v : List Entry) : (s.setEntries v).pending = s.pending := rfl

/-! ## setSynth -/

@[simp] theorem setSynth_link (v : Synth) : (s.setSynth v).link = s.link := rfl
@[simp] theorem setSynth_ports (v : Synth) : (s.setSynth v).ports = s.ports := rfl
@[simp] theorem setSynth_volumes (v : Synth) : (s.setSynth v).volumes = s.volumes := rfl
@[simp] theorem setSynth_profiles (v : Synth) : (s.setSynth v).profiles = s.profiles := rfl
@[simp] theorem setSynth_jobs (v : Synth) : (s.setSynth v).jobs = s.jobs := rfl
@[simp] theorem setSynth_nextJobId (v : Synth) : (s.setSynth v).nextJobId = s.nextJobId := rfl
@[simp] theorem setSynth_channelA (v : Synth) : (s.setSynth v).channelA = s.channelA := rfl
@[simp] theorem setSynth_channelB (v : Synth) : (s.setSynth v).channelB = s.channelB := rfl
@[simp] theorem setSynth_waits (v : Synth) : (s.setSynth v).waits = s.waits := rfl
@[simp] theorem setSynth_input (v : Synth) : (s.setSynth v).input = s.input := rfl
@[simp] theorem setSynth_entries (v : Synth) : (s.setSynth v).entries = s.entries := rfl
@[simp] theorem setSynth_synth (v : Synth) : (s.setSynth v).synth = v := rfl
@[simp] theorem setSynth_pool (v : Synth) : (s.setSynth v).pool = s.pool := rfl
@[simp] theorem setSynth_memory (v : Synth) : (s.setSynth v).memory = s.memory := rfl
@[simp] theorem setSynth_transfer (v : Synth) : (s.setSynth v).transfer = s.transfer := rfl
@[simp] theorem setSynth_closing (v : Synth) : (s.setSynth v).closing = s.closing := rfl
@[simp] theorem setSynth_pending (v : Synth) : (s.setSynth v).pending = s.pending := rfl

/-! ## setPool -/

@[simp] theorem setPool_link (v : List Nat) : (s.setPool v).link = s.link := rfl
@[simp] theorem setPool_ports (v : List Nat) : (s.setPool v).ports = s.ports := rfl
@[simp] theorem setPool_volumes (v : List Nat) : (s.setPool v).volumes = s.volumes := rfl
@[simp] theorem setPool_profiles (v : List Nat) : (s.setPool v).profiles = s.profiles := rfl
@[simp] theorem setPool_jobs (v : List Nat) : (s.setPool v).jobs = s.jobs := rfl
@[simp] theorem setPool_nextJobId (v : List Nat) : (s.setPool v).nextJobId = s.nextJobId := rfl
@[simp] theorem setPool_channelA (v : List Nat) : (s.setPool v).channelA = s.channelA := rfl
@[simp] theorem setPool_channelB (v : List Nat) : (s.setPool v).channelB = s.channelB := rfl
@[simp] theorem setPool_waits (v : List Nat) : (s.setPool v).waits = s.waits := rfl
@[simp] theorem setPool_input (v : List Nat) : (s.setPool v).input = s.input := rfl
@[simp] theorem setPool_entries (v : List Nat) : (s.setPool v).entries = s.entries := rfl
@[simp] theorem setPool_synth (v : List Nat) : (s.setPool v).synth = s.synth := rfl
@[simp] theorem setPool_pool (v : List Nat) : (s.setPool v).pool = v := rfl
@[simp] theorem setPool_memory (v : List Nat) : (s.setPool v).memory = s.memory := rfl
@[simp] theorem setPool_transfer (v : List Nat) : (s.setPool v).transfer = s.transfer := rfl
@[simp] theorem setPool_closing (v : List Nat) : (s.setPool v).closing = s.closing := rfl
@[simp] theorem setPool_pending (v : List Nat) : (s.setPool v).pending = s.pending := rfl

/-! ## setMemory -/

@[simp] theorem setMemory_link (v : Memory) : (s.setMemory v).link = s.link := rfl
@[simp] theorem setMemory_ports (v : Memory) : (s.setMemory v).ports = s.ports := rfl
@[simp] theorem setMemory_volumes (v : Memory) : (s.setMemory v).volumes = s.volumes := rfl
@[simp] theorem setMemory_profiles (v : Memory) : (s.setMemory v).profiles = s.profiles := rfl
@[simp] theorem setMemory_jobs (v : Memory) : (s.setMemory v).jobs = s.jobs := rfl
@[simp] theorem setMemory_nextJobId (v : Memory) : (s.setMemory v).nextJobId = s.nextJobId := rfl
@[simp] theorem setMemory_channelA (v : Memory) : (s.setMemory v).channelA = s.channelA := rfl
@[simp] theorem setMemory_channelB (v : Memory) : (s.setMemory v).channelB = s.channelB := rfl
@[simp] theorem setMemory_waits (v : Memory) : (s.setMemory v).waits = s.waits := rfl
@[simp] theorem setMemory_input (v : Memory) : (s.setMemory v).input = s.input := rfl
@[simp] theorem setMemory_entries (v : Memory) : (s.setMemory v).entries = s.entries := rfl
@[simp] theorem setMemory_synth (v : Memory) : (s.setMemory v).synth = s.synth := rfl
@[simp] theorem setMemory_pool (v : Memory) : (s.setMemory v).pool = s.pool := rfl
@[simp] theorem setMemory_memory (v : Memory) : (s.setMemory v).memory = v := rfl
@[simp] theorem setMemory_transfer (v : Memory) : (s.setMemory v).transfer = s.transfer := rfl
@[simp] theorem setMemory_closing (v : Memory) : (s.setMemory v).closing = s.closing := rfl
@[simp] theorem setMemory_pending (v : Memory) : (s.setMemory v).pending = s.pending := rfl

/-! ## setTransfer -/

@[simp] theorem setTransfer_link (v : Option Transfer) : (s.setTransfer v).link = s.link := rfl
@[simp] theorem setTransfer_ports (v : Option Transfer) : (s.setTransfer v).ports = s.ports := rfl
@[simp] theorem setTransfer_volumes (v : Option Transfer) : (s.setTransfer v).volumes = s.volumes := rfl
@[simp] theorem setTransfer_profiles (v : Option Transfer) : (s.setTransfer v).profiles = s.profiles := rfl
@[simp] theorem setTransfer_jobs (v : Option Transfer) : (s.setTransfer v).jobs = s.jobs := rfl
@[simp] theorem setTransfer_nextJobId (v : Option Transfer) : (s.setTransfer v).nextJobId = s.nextJobId := rfl
@[simp] theorem setTransfer_channelA (v : Option Transfer) : (s.setTransfer v).channelA = s.channelA := rfl
@[simp] theorem setTransfer_channelB (v : Option Transfer) : (s.setTransfer v).channelB = s.channelB := rfl
@[simp] theorem setTransfer_waits (v : Option Transfer) : (s.setTransfer v).waits = s.waits := rfl
@[simp] theorem setTransfer_input (v : Option Transfer) : (s.setTransfer v).input = s.input := rfl
@[simp] theorem setTransfer_entries (v : Option Transfer) : (s.setTransfer v).entries = s.entries := rfl
@[simp] theorem setTransfer_synth (v : Option Transfer) : (s.setTransfer v).synth = s.synth := rfl
@[simp] theorem setTransfer_pool (v : Option Transfer) : (s.setTransfer v).pool = s.pool := rfl
@[simp] theorem setTransfer_memory (v : Option Transfer) : (s.setTransfer v).memory = s.memory := rfl
@[simp] theorem setTransfer_transfer (v : Option Transfer) : (s.setTransfer v).transfer = v := rfl
@[simp] theorem setTransfer_closing (v : Option Transfer) : (s.setTransfer v).closing = s.closing := rfl
@[simp] theorem setTransfer_pending (v : Option Transfer) : (s.setTransfer v).pending = s.pending := rfl

/-! ## setClosing -/

@[simp] theorem setClosing_link (v : Option ClosingRecord) : (s.setClosing v).link = s.link := rfl
@[simp] theorem setClosing_ports (v : Option ClosingRecord) : (s.setClosing v).ports = s.ports := rfl
@[simp] theorem setClosing_volumes (v : Option ClosingRecord) : (s.setClosing v).volumes = s.volumes := rfl
@[simp] theorem setClosing_profiles (v : Option ClosingRecord) : (s.setClosing v).profiles = s.profiles := rfl
@[simp] theorem setClosing_jobs (v : Option ClosingRecord) : (s.setClosing v).jobs = s.jobs := rfl
@[simp] theorem setClosing_nextJobId (v : Option ClosingRecord) : (s.setClosing v).nextJobId = s.nextJobId := rfl
@[simp] theorem setClosing_channelA (v : Option ClosingRecord) : (s.setClosing v).channelA = s.channelA := rfl
@[simp] theorem setClosing_channelB (v : Option ClosingRecord) : (s.setClosing v).channelB = s.channelB := rfl
@[simp] theorem setClosing_waits (v : Option ClosingRecord) : (s.setClosing v).waits = s.waits := rfl
@[simp] theorem setClosing_input (v : Option ClosingRecord) : (s.setClosing v).input = s.input := rfl
@[simp] theorem setClosing_entries (v : Option ClosingRecord) : (s.setClosing v).entries = s.entries := rfl
@[simp] theorem setClosing_synth (v : Option ClosingRecord) : (s.setClosing v).synth = s.synth := rfl
@[simp] theorem setClosing_pool (v : Option ClosingRecord) : (s.setClosing v).pool = s.pool := rfl
@[simp] theorem setClosing_memory (v : Option ClosingRecord) : (s.setClosing v).memory = s.memory := rfl
@[simp] theorem setClosing_transfer (v : Option ClosingRecord) : (s.setClosing v).transfer = s.transfer := rfl
@[simp] theorem setClosing_closing (v : Option ClosingRecord) : (s.setClosing v).closing = v := rfl
@[simp] theorem setClosing_pending (v : Option ClosingRecord) : (s.setClosing v).pending = s.pending := rfl

/-! ## setPending -/

@[simp] theorem setPending_link (v : List Instr) : (s.setPending v).link = s.link := rfl
@[simp] theorem setPending_ports (v : List Instr) : (s.setPending v).ports = s.ports := rfl
@[simp] theorem setPending_volumes (v : List Instr) : (s.setPending v).volumes = s.volumes := rfl
@[simp] theorem setPending_profiles (v : List Instr) : (s.setPending v).profiles = s.profiles := rfl
@[simp] theorem setPending_jobs (v : List Instr) : (s.setPending v).jobs = s.jobs := rfl
@[simp] theorem setPending_nextJobId (v : List Instr) : (s.setPending v).nextJobId = s.nextJobId := rfl
@[simp] theorem setPending_channelA (v : List Instr) : (s.setPending v).channelA = s.channelA := rfl
@[simp] theorem setPending_channelB (v : List Instr) : (s.setPending v).channelB = s.channelB := rfl
@[simp] theorem setPending_waits (v : List Instr) : (s.setPending v).waits = s.waits := rfl
@[simp] theorem setPending_input (v : List Instr) : (s.setPending v).input = s.input := rfl
@[simp] theorem setPending_entries (v : List Instr) : (s.setPending v).entries = s.entries := rfl
@[simp] theorem setPending_synth (v : List Instr) : (s.setPending v).synth = s.synth := rfl
@[simp] theorem setPending_pool (v : List Instr) : (s.setPending v).pool = s.pool := rfl
@[simp] theorem setPending_memory (v : List Instr) : (s.setPending v).memory = s.memory := rfl
@[simp] theorem setPending_transfer (v : List Instr) : (s.setPending v).transfer = s.transfer := rfl
@[simp] theorem setPending_closing (v : List Instr) : (s.setPending v).closing = s.closing := rfl
@[simp] theorem setPending_pending (v : List Instr) : (s.setPending v).pending = v := rfl

end Sys2Proof.Machine
end

