-- ==== Sys2Proof/Laws/Intake.lean ====
section
/-! SUPPORT. What the intake does with one host command (R187 to R191): the lemmas a proof about a command cites. -/

namespace Sys2Proof.Machine

/-- Every host command's row gives its record to its queue. -/
theorem exec_instrOf (q : Queue) (tag : BitVec 8) (c : HostCommand) (s : State) : exec (instrOf q tag c) s = .next (s.submit q tag c) := by
  cases c <;> rfl

theorem Lane.clear_records (l : Lane) (h : l.records = []) : ({ l with records := [] } : Lane) = l := by
  cases l; simp_all

theorem Link.join_take (l : Link) (q : Queue) (r : Record) (hc : l.console.records = []) (ht : l.transfer.records = []) :
    (l.joinRecord q r).nextRecord = some (q, r, []) := by
  cases q <;> cases hp : l.preference <;>
    simp [Link.joinRecord, Link.lane, Link.setLane, Link.nextRecord, Config.queueRecords, otherQueue, hc, ht, hp]

theorem Link.join_freePlaces (l : Link) (q : Queue) (r : Record) : (l.joinRecord q r).freePlaces = l.freePlaces := by
  cases q <;> simp only [Link.joinRecord] <;> split <;> rfl

theorem Link.level_joinRecord (l : Link) (q q' : Queue) (r : Record) : (l.joinRecord q r).level q' = l.level q' := by
  cases q' <;> cases q <;> simp only [Link.joinRecord] <;> split <;> rfl

/-- The link port after a command has been taken from a queue whose list it had just joined. -/
theorem Link.take_join (l : Link) (q : Queue) (r : Record) (hc : l.console.records = []) (ht : l.transfer.records = []) :
    (l.joinRecord q r).setLane q { (l.joinRecord q r).lane q with records := [] } = l := by
  obtain ⟨⟨ca, cr⟩, ⟨ta, tr⟩, responses, wordsRead, reserved, preference, level, enables, overflow, misuse, media, bus⟩ := l
  simp only at hc ht
  subst hc ht
  cases q <;> rfl

/-- A command given while the intake stands ready is taken at once and judged (R189, R190). -/
theorem State.submit_ready (s : State) (q : Queue) (tag : BitVec 8) (c : HostCommand) (h : s.Ready) (hw : c.wellFormed = true) :
    s.submit q tag c = (s.taken q).judge ⟨q, tag, c.code, s.link.level q⟩ c := by
  have hn := Link.join_take s.link q (c.record tag) h.console h.transfer
  have hf := Link.join_freePlaces s.link q (c.record tag)
  have hp : Config.intakePlaces ≤ (s.link.joinRecord q (c.record tag)).freePlaces := by rw [hf]; exact h.places
  have hlen : ∃ n, (s.link.joinRecord q (c.record tag)).console.records.length
      + (s.link.joinRecord q (c.record tag)).transfer.records.length = n + 1 := by
    refine ⟨0, ?_⟩
    cases q <;> simp [Link.joinRecord, Link.lane, Link.setLane, Config.queueRecords, h.console, h.transfer]
  obtain ⟨n, hn1⟩ := hlen
  have hn0 : n = 0 := by
    cases q <;> simp [Link.joinRecord, Link.lane, Link.setLane, Config.queueRecords, h.console, h.transfer] at hn1 <;> omega
  subst hn0
  unfold State.submit State.complete State.intake
  simp only [setLink_link]
  rw [hn1]
  simp only [State.intakeLoop, setLink_link, hp, if_true, hn, State.take, State.ctxOf, HostCommand.command_record tag c hw,
    HostCommand.record_code, HostCommand.record_tag, Link.level_joinRecord]
  rw [Link.take_join s.link q (c.record tag) h.console h.transfer]
  rfl

theorem State.exec_ready (s : State) (q : Queue) (tag : BitVec 8) (c : HostCommand) (h : s.Ready) (hw : c.wellFormed = true) :
    exec (instrOf q tag c) s = .next ((s.taken q).judge ⟨q, tag, c.code, s.link.level q⟩ c) := by
  rw [exec_instrOf, s.submit_ready q tag c h hw]

/-! ## A taken command changes the link port alone -/

@[simp] theorem State.taken_ports (s : State) (q : Queue) : (s.taken q).ports = s.ports := rfl
@[simp] theorem State.taken_volumes (s : State) (q : Queue) : (s.taken q).volumes = s.volumes := rfl
@[simp] theorem State.taken_profiles (s : State) (q : Queue) : (s.taken q).profiles = s.profiles := rfl
@[simp] theorem State.taken_jobs (s : State) (q : Queue) : (s.taken q).jobs = s.jobs := rfl
@[simp] theorem State.taken_nextJobId (s : State) (q : Queue) : (s.taken q).nextJobId = s.nextJobId := rfl
@[simp] theorem State.taken_channelA (s : State) (q : Queue) : (s.taken q).channelA = s.channelA := rfl
@[simp] theorem State.taken_channelB (s : State) (q : Queue) : (s.taken q).channelB = s.channelB := rfl
@[simp] theorem State.taken_waits (s : State) (q : Queue) : (s.taken q).waits = s.waits := rfl
@[simp] theorem State.taken_input (s : State) (q : Queue) : (s.taken q).input = s.input := rfl
@[simp] theorem State.taken_entries (s : State) (q : Queue) : (s.taken q).entries = s.entries := rfl
@[simp] theorem State.taken_synth (s : State) (q : Queue) : (s.taken q).synth = s.synth := rfl
@[simp] theorem State.taken_pool (s : State) (q : Queue) : (s.taken q).pool = s.pool := rfl
@[simp] theorem State.taken_memory (s : State) (q : Queue) : (s.taken q).memory = s.memory := rfl
@[simp] theorem State.taken_transfer (s : State) (q : Queue) : (s.taken q).transfer = s.transfer := rfl
@[simp] theorem State.taken_closing (s : State) (q : Queue) : (s.taken q).closing = s.closing := rfl
@[simp] theorem State.taken_pending (s : State) (q : Queue) : (s.taken q).pending = s.pending := rfl

@[simp] theorem State.setPorts_taken (s : State) (q : Queue) (v : Four Port) : (s.taken q).setPorts v = (s.setPorts v).taken q := rfl
@[simp] theorem State.setVolumes_taken (s : State) (q : Queue) (v : Vector VolumeEntry 32) : (s.taken q).setVolumes v = (s.setVolumes v).taken q := rfl
@[simp] theorem State.setProfiles_taken (s : State) (q : Queue) (v : ProfileTable) : (s.taken q).setProfiles v = (s.setProfiles v).taken q := rfl
@[simp] theorem State.setJobs_taken (s : State) (q : Queue) (v : List Job) : (s.taken q).setJobs v = (s.setJobs v).taken q := rfl
@[simp] theorem State.setNextJobId_taken (s : State) (q : Queue) (v : Nat) : (s.taken q).setNextJobId v = (s.setNextJobId v).taken q := rfl
@[simp] theorem State.setChannelA_taken (s : State) (q : Queue) (v : Channel) : (s.taken q).setChannelA v = (s.setChannelA v).taken q := rfl
@[simp] theorem State.setChannelB_taken (s : State) (q : Queue) (v : Channel) : (s.taken q).setChannelB v = (s.setChannelB v).taken q := rfl
@[simp] theorem State.setWaits_taken (s : State) (q : Queue) (v : List Nat) : (s.taken q).setWaits v = (s.setWaits v).taken q := rfl
@[simp] theorem State.setInput_taken (s : State) (q : Queue) (v : List Reading) : (s.taken q).setInput v = (s.setInput v).taken q := rfl
@[simp] theorem State.setEntries_taken (s : State) (q : Queue) (v : List Entry) : (s.taken q).setEntries v = (s.setEntries v).taken q := rfl
@[simp] theorem State.setSynth_taken (s : State) (q : Queue) (v : Synth) : (s.taken q).setSynth v = (s.setSynth v).taken q := rfl
@[simp] theorem State.setPool_taken (s : State) (q : Queue) (v : List Nat) : (s.taken q).setPool v = (s.setPool v).taken q := rfl
@[simp] theorem State.setMemory_taken (s : State) (q : Queue) (v : Memory) : (s.taken q).setMemory v = (s.setMemory v).taken q := rfl
@[simp] theorem State.setTransfer_taken (s : State) (q : Queue) (v : Option Transfer) : (s.taken q).setTransfer v = (s.setTransfer v).taken q := rfl
@[simp] theorem State.setClosing_taken (s : State) (q : Queue) (v : Option ClosingRecord) : (s.taken q).setClosing v = (s.setClosing v).taken q := rfl
@[simp] theorem State.setPending_taken (s : State) (q : Queue) (v : List Instr) : (s.taken q).setPending v = (s.setPending v).taken q := rfl

/-! ## The one response of a taken command -/

@[simp] theorem State.post_taken (s : State) (q : Queue) (r : List Word) : (s.taken q).post r = s.answered q r := by
  simp [State.taken, State.post, State.answered, State.setLink]

/-- An ANSWER through the place the taking reserved. -/
@[simp] theorem State.answer_taken (s : State) (q : Queue) (c : Ctx) (code : AnswerCode) (body : List Word) :
    (s.taken q).answer c code body = s.answered q (answerOf c.queue c.tag c.code code body) := s.post_taken q _

@[simp] theorem State.refuse_taken (s : State) (q : Queue) (c : Ctx) (code : RefusalCode) (body : List Word) :
    (s.taken q).refuse c code body = s.answered q (refusalOf c.queue c.tag c.code code body) := s.post_taken q _

@[simp] theorem State.refuseHandle_taken (s : State) (q : Queue) (c : Ctx) (code : RefusalCode) (h : Nat) (body : List Word) :
    (s.taken q).refuseHandle c code h body = s.answered q (refusalNaming c.queue c.tag c.code code h body) := s.post_taken q _

end Sys2Proof.Machine
end

