-- ==== Sys2Proof/Laws/Ports.lean ====
section
/-! SUPPORT. One of four: what a read gives after a write, for the ports and the flags. -/

namespace Sys2Proof.Machine

variable {α : Type} (f : Four α) (p q : Fin 4) (v w : α)

@[simp] theorem Four.get_set_self : (f.set p v).get p = v := by
  fin_cases p <;> rfl

theorem Four.get_set_other (h : q ≠ p) : (f.set p v).get q = f.get q := by
  fin_cases p <;> fin_cases q <;> first | rfl | exact absurd rfl h

@[simp] theorem Four.set_set : (f.set p v).set p w = f.set p w := by
  fin_cases p <;> rfl

@[simp] theorem Four.set_get : f.set p (f.get p) = f := by
  fin_cases p <;> rfl

theorem Four.get_set : (f.set p v).get q = if q = p then v else f.get q := by
  split
  · subst q; simp
  · exact f.get_set_other p q v ‹_›

variable (s : State) (x y : Port) (g h : Port → Port)

@[simp] theorem port_setPort_self : (s.setPort p x).port p = x := Four.get_set_self _ _ _
theorem port_setPort_other (hne : q ≠ p) : (s.setPort p x).port q = s.port q := Four.get_set_other _ _ _ _ hne
@[simp] theorem port_updatePort_self : (s.updatePort p g).port p = g (s.port p) := Four.get_set_self _ _ _
theorem port_updatePort_other (hne : q ≠ p) : (s.updatePort p g).port q = s.port q := Four.get_set_other _ _ _ _ hne

/-- Two changes of one port are one. -/
@[simp] theorem updatePort_updatePort : (s.updatePort p g).updatePort p h = s.updatePort p fun q => h (g q) := by
  simp [State.updatePort, State.setPort, State.port, State.setPorts]

end Sys2Proof.Machine
end

