-- ==== Sys2Proof/Laws/Jobs.lean ====
section
/-! SUPPORT. Jobs and channels found by their numbers, what one update of each changes, and what a header or a mark makes of the sector in
receipt. -/

namespace Sys2Proof.Machine

theorem portOf_eq {port : BitVec 8} {p : Fin 4} (h : port.toNat = p.val) : portOf port = p := by
  apply Fin.ext
  simp [portOf, h]

/-! ## The job table -/

theorem unique_id {l : List Job} (h : l.Pairwise Job.Apart) {x y : Job} (hx : x ∈ l) (hy : y ∈ l) (e : x.id = y.id) : x = y := by
  by_contra hne
  obtain ⟨i, hi, rfl⟩ := List.getElem_of_mem hx
  obtain ⟨k, hk, rfl⟩ := List.getElem_of_mem hy
  rcases Nat.lt_trichotomy i k with hlt | heq | hgt
  · exact (List.pairwise_iff_getElem.1 h i k hi hk hlt).1 e
  · subst heq; exact hne rfl
  · exact (List.pairwise_iff_getElem.1 h k i hk hi hgt).1 e.symm

theorem job_mem {s : State} {id : Nat} {j : Job} (h : s.job id = some j) : j ∈ s.jobs ∧ j.id = id :=
  ⟨List.mem_of_find?_eq_some h, by simpa using List.find?_some h⟩

/-- A job of a sound table is found under its id. -/
theorem job_of_mem {s : State} (hs : s.JobsSound) {j : Job} (hj : j ∈ s.jobs) : s.job j.id = some j := by
  unfold State.job
  cases hf : s.jobs.find? (fun x => x.id == j.id) with
  | none => exact absurd (List.find?_eq_none.1 hf j hj) (by simp)
  | some x => rw [unique_id hs.apart (List.mem_of_find?_eq_some hf) hj (by simpa using List.find?_some hf)]

/-- An update of one job of a sound table depends on that job alone. -/
theorem map_job {s : State} (hs : s.JobsSound) {j : Job} (hj : j ∈ s.jobs) {f g : Job → Job} (h : f j = g j) :
    s.jobs.map (fun x => if x.id == j.id then f x else x) = s.jobs.map (fun x => if x.id == j.id then g x else x) := by
  apply List.map_congr_left
  intro x hx
  by_cases e : x.id = j.id
  · rw [unique_id hs.apart hx hj e]; simp [h]
  · simp [e]

theorem activeJob_mem {s : State} {p : Fin 4} {j : Job} (h : s.activeJob p = some j) :
    j ∈ s.jobs ∧ j.drive = p ∧ j.state ≠ .queued :=
  ⟨List.mem_of_find?_eq_some h, by simpa using List.find?_some h⟩

theorem activeJob_isNone {s : State} {p : Fin 4} :
    (s.activeJob p).isNone = true ↔ ∀ j ∈ s.jobs, j.drive = p → j.state = .queued := by
  simp [State.activeJob]

theorem queuedJob_mem {s : State} {p : Fin 4} {j : Job} (h : s.queuedJob p = some j) :
    j ∈ s.jobs ∧ j.drive = p ∧ j.state = .queued :=
  ⟨List.mem_of_find?_eq_some h, by simpa using List.find?_some h⟩

theorem bandJob_mem {s : State} {handle cylinder head : Nat} {j : Job} (h : s.bandJob handle cylinder head = some j) :
    j ∈ s.jobs ∧ (j.handle = handle ∧ j.cylinder = cylinder) ∧ j.head = head :=
  ⟨List.mem_of_find?_eq_some h, by simpa using List.find?_some h⟩

/-! ## Channels -/

@[simp] theorem channel_setChannel (s : State) (c : ChannelName) (v : Channel) : (s.setChannel c v).channel c = v := by cases c <;> rfl

@[simp] theorem setChannel_setChannel (s : State) (c : ChannelName) (v w : Channel) : (s.setChannel c v).setChannel c w = s.setChannel c w := by
  cases c <;> rfl

@[simp] theorem channel_updateChannel (s : State) (c : ChannelName) (f : Channel → Channel) : (s.updateChannel c f).channel c = f (s.channel c) := by
  cases c <;> rfl

@[simp] theorem updateChannel_updateChannel (s : State) (c : ChannelName) (f g : Channel → Channel) :
    (s.updateChannel c f).updateChannel c g = s.updateChannel c fun ch => g (f ch) := by
  cases c <;> rfl

@[simp] theorem place_setPlace (c : Channel) (n : PlaceName) (v : Place) : (c.setPlace n v).place n = v := by cases n <;> rfl

/-- Only the condition of the named place changes. -/
theorem setCondition_frames (c : Channel) (n : PlaceName) (v : PlaceCondition) :
    (c.setCondition n v).placeOne.frame = c.placeOne.frame ∧ (c.setCondition n v).placeTwo.frame = c.placeTwo.frame := by
  cases n <;> exact ⟨rfl, rfl⟩

/-- A discarded receipt keeps both frames. -/
theorem dropReceipt_frames (c : Channel) :
    c.dropReceipt.placeOne.frame = c.placeOne.frame ∧ c.dropReceipt.placeTwo.frame = c.placeTwo.frame := by
  unfold Channel.dropReceipt
  split
  · exact setCondition_frames _ _ _
  · exact ⟨rfl, rfl⟩

/-- A freed channel keeps both frames. -/
theorem toFree_frames (c : Channel) : c.toFree.placeOne.frame = c.placeOne.frame ∧ c.toFree.placeTwo.frame = c.placeTwo.frame :=
  dropReceipt_frames c

/-! ## Entries -/

theorem entry_mem {s : State} {k : Key} {e : Entry} (h : s.entry k = some e) : e ∈ s.entries ∧ e.key = k :=
  ⟨List.mem_of_find?_eq_some h, by simpa using List.find?_some h⟩

/-! ## What a header or a mark makes of the sector in receipt (R101, R106) -/

theorem meetReceipt_none {s : State} {c : ChannelName} (h : (s.channel c).receipt = none) : s.meetReceipt c = (s, true) := by
  simp [State.meetReceipt, h]

/-- An open data field is not broken (log 16). -/
theorem meetReceipt_open {s : State} {c : ChannelName} {r : Receipt} (h : (s.channel c).receipt = some r) (hr : r.dataMark = true) :
    s.meetReceipt c = (s, false) := by
  cases hj : s.passJob c <;> simp [State.meetReceipt, h, hj, hr]

/-- A data field whose mark has not come is absent, and what was met is taken where no end is pending. -/
theorem meetReceipt_absent {s : State} {c : ChannelName} {r : Receipt} {j : Job} (h : (s.channel c).receipt = some r)
    (hr : r.dataMark = false) (hj : s.passJob c = some j) :
    s.meetReceipt c = (s.sectorAbsent c j r, (s.channel c).endPending.isNone) := by
  simp [State.meetReceipt, h, hj, hr]

end Sys2Proof.Machine
end

