-- ==== Sys2Proof/Laws/Lanes.lean ====
section
/-! SUPPORT. No command but RESTART touches the lists of records that wait (R187, R189), and what the intake does with records that wait in
either list. -/

namespace Sys2Proof.Machine

/-- The two command queues. -/
def State.lanes (s : State) : Lane × Lane := (s.link.console, s.link.transfer)

/-! ## The operations -/

section operations
variable (s : State)

@[simp] theorem lanes_setPorts (v) : (s.setPorts v).lanes = s.lanes := rfl
@[simp] theorem lanes_setVolumes (v) : (s.setVolumes v).lanes = s.lanes := rfl
@[simp] theorem lanes_setProfiles (v) : (s.setProfiles v).lanes = s.lanes := rfl
@[simp] theorem lanes_setJobs (v) : (s.setJobs v).lanes = s.lanes := rfl
@[simp] theorem lanes_setNextJobId (v) : (s.setNextJobId v).lanes = s.lanes := rfl
@[simp] theorem lanes_setWaits (v) : (s.setWaits v).lanes = s.lanes := rfl
@[simp] theorem lanes_setInput (v) : (s.setInput v).lanes = s.lanes := rfl
@[simp] theorem lanes_setEntries (v) : (s.setEntries v).lanes = s.lanes := rfl
@[simp] theorem lanes_setSynth (v) : (s.setSynth v).lanes = s.lanes := rfl
@[simp] theorem lanes_setPool (v) : (s.setPool v).lanes = s.lanes := rfl
@[simp] theorem lanes_setMemory (v) : (s.setMemory v).lanes = s.lanes := rfl
@[simp] theorem lanes_setTransfer (v) : (s.setTransfer v).lanes = s.lanes := rfl
@[simp] theorem lanes_setClosing (v) : (s.setClosing v).lanes = s.lanes := rfl
@[simp] theorem lanes_setChannel (c v) : (s.setChannel c v).lanes = s.lanes := by cases c <;> rfl
@[simp] theorem lanes_updateChannel (c f) : (s.updateChannel c f).lanes = s.lanes := lanes_setChannel ..
@[simp] theorem lanes_updatePort (p f) : (s.updatePort p f).lanes = s.lanes := rfl
@[simp] theorem lanes_updateJob (id f) : (s.updateJob id f).lanes = s.lanes := rfl
@[simp] theorem lanes_removeJob (id) : (s.removeJob id).lanes = s.lanes := rfl
@[simp] theorem lanes_updateEntry (k f) : (s.updateEntry k f).lanes = s.lanes := rfl
@[simp] theorem lanes_setVolume (h v) : (s.setVolume h v).lanes = s.lanes := by unfold State.setVolume; split <;> rfl
@[simp] theorem lanes_setPresent (h v) : (s.setPresent h v).lanes = s.lanes := by unfold State.setPresent; split <;> simp
@[simp] theorem lanes_reserve : s.reserve.lanes = s.lanes := rfl
@[simp] theorem lanes_post (r) : (s.post r).lanes = s.lanes := rfl
@[simp] theorem lanes_answer (c code body) : (s.answer c code body).lanes = s.lanes := rfl
@[simp] theorem lanes_refuse (c code body) : (s.refuse c code body).lanes = s.lanes := rfl
@[simp] theorem lanes_refuseHandle (c code h body) : (s.refuseHandle c code h body).lanes = s.lanes := rfl
@[simp] theorem lanes_refuseChain (c r) : (s.refuseChain c r).lanes = s.lanes := rfl
@[simp] theorem lanes_refuseKey (c r code body) : (s.refuseKey c r code body).lanes = s.lanes := rfl
@[simp] theorem lanes_refusePortBusy (c r t) : (s.refusePortBusy c r t).lanes = s.lanes := rfl
@[simp] theorem lanes_returnFrame (f) : (s.returnFrame f).lanes = s.lanes := rfl

theorem lanes_claimFrame {s t : State} {f : Nat} (h : s.claimFrame = some (f, t)) : t.lanes = s.lanes := by
  unfold State.claimFrame at h
  split at h
  · simp at h
  · cases h; rfl

theorem lanes_returnFrames : ∀ (fs : List Nat) (s : State), (s.returnFrames fs).lanes = s.lanes
  | [], _ => rfl
  | f :: rest, s => (lanes_returnFrames rest (s.returnFrame f)).trans rfl

/-! ## Channels and jobs -/

@[simp] theorem lanes_enterRetensionWait (j) : (s.enterRetensionWait j).lanes = s.lanes := by
  unfold State.enterRetensionWait; dsimp only; split <;> rfl

@[simp] theorem lanes_requestStream (c j) : (s.requestStream c j).1.lanes = s.lanes := by
  unfold State.requestStream
  split
  · rfl
  · dsimp only
    split
    · rfl
    · split <;> simp

theorem lanes_grantWaiting (c : ChannelName) : ∀ (n : Nat) (s : State), (s.grantWaiting c n).lanes = s.lanes
  | 0, _ => rfl
  | n + 1, s => by
    unfold State.grantWaiting
    split
    · rfl
    · dsimp only
      split
      · exact lanes_grantWaiting c n _
      · split
        · rw [lanes_grantWaiting c n _]; simp
        · simp

@[simp] theorem lanes_release (c) : (s.release c).lanes = s.lanes := by
  unfold State.release; dsimp only; rw [lanes_grantWaiting]; simp

@[simp] theorem lanes_releaseOf (id) : (s.releaseOf id).lanes = s.lanes := by unfold State.releaseOf; split <;> simp
@[simp] theorem lanes_withdrawWait (id) : (s.withdrawWait id).lanes = s.lanes := rfl

@[simp] theorem lanes_awaitChannel (id) : (s.awaitChannel id).lanes = s.lanes := by
  unfold State.awaitChannel
  split
  · rfl
  · dsimp only
    split
    · split <;> simp
    · split
      · simp
      · split <;> simp

@[simp] theorem lanes_positionJob (j) : (s.positionJob j).lanes = s.lanes := by
  unfold State.positionJob
  split
  · rfl
  · dsimp only; split <;> simp

@[simp] theorem lanes_startJob (j) : (s.startJob j).lanes = s.lanes := by
  unfold State.startJob
  dsimp only
  split
  · simp
  · split <;> simp

@[simp] theorem lanes_postNotice (id) : (s.postNotice id).lanes = s.lanes := by
  unfold State.postNotice
  split
  · rfl
  · split <;> simp

theorem lanes_offerLoop (p : Fin 4) : ∀ (n : Nat) (s : State), (s.offerLoop p n).lanes = s.lanes
  | 0, _ => rfl
  | n + 1, s => by
    unfold State.offerLoop
    split
    · split
      · rfl
      · split
        · simp
        · rw [lanes_offerLoop p n _]; simp
    · rfl

@[simp] theorem lanes_offer (p) : (s.offer p).lanes = s.lanes := lanes_offerLoop ..

@[simp] theorem lanes_afterLeaving (j) : (s.afterLeaving j).lanes = s.lanes := by
  unfold State.afterLeaving
  split
  · rfl
  · dsimp only
    split
    · simp
    · split <;> simp

@[simp] theorem lanes_finishJob (id) : (s.finishJob id).lanes = s.lanes := by unfold State.finishJob; split <;> simp
@[simp] theorem lanes_decideEnding (id e) : (s.decideEnding id e).lanes = s.lanes := rfl

/-! ## The synthesis unit and the close -/

theorem lanes_judgeStart {s t : State} {r : SynthRequest} (h : s.judgeStart r = .inl t) : t.lanes = s.lanes := by
  unfold State.judgeStart at h
  split at h
  · simp at h
  · split at h
    · simp at h
    · split at h
      · simp at h
      · split at h
        · simp at h
        · split at h
          · simp at h
          · split at h
            · simp at h
            · rename_i hc
              cases h
              rw [lanes_setSynth]
              exact lanes_claimFrame hc

theorem lanes_synthArrive {s t : State} {r : SynthRequest} (h : s.synthArrive r = .inl t) : t.lanes = s.lanes := by
  unfold State.synthArrive at h
  split at h
  · exact lanes_judgeStart h
  · cases h; rfl

@[simp] theorem lanes_markEntry (j sector n) : (s.markEntry j sector n).lanes = s.lanes := by
  unfold State.markEntry
  dsimp only
  split
  · rfl
  · split
    · split
      · rfl
      · split <;> rfl
    all_goals rfl

@[simp] theorem lanes_closeDone (id) : (s.closeDone id).lanes = s.lanes := by unfold State.closeDone; simp

theorem lanes_closeFrom (j : Job) : ∀ (ids : List Nat) (s : State), (State.closeFrom j ids s).lanes = s.lanes
  | [], s => lanes_closeDone s j.id
  | sector :: rest, s => by
    unfold State.closeFrom
    split
    · split
      · rename_i h
        rw [lanes_updateJob]
        exact lanes_synthArrive h
      · rw [lanes_closeFrom j rest _, lanes_markEntry]
    · rw [lanes_closeFrom j rest _, lanes_markEntry]

@[simp] theorem lanes_enterClosing (j) : (s.enterClosing j).lanes = s.lanes := by
  unfold State.enterClosing
  dsimp only
  rw [lanes_closeFrom]
  split <;> simp

@[simp] theorem lanes_decidePass (j) : (s.decidePass j).lanes = s.lanes := by
  unfold State.decidePass State.reseatJob
  split
  · simp
  · split
    · dsimp only; split <;> simp
    · simp

@[simp] theorem lanes_checkDrained (id) : (s.checkDrained id).lanes = s.lanes := by
  unfold State.checkDrained
  split
  · rfl
  · split
    · split <;> simp
    · rfl

@[simp] theorem lanes_endPassCancelled (c) : (s.endPassCancelled c).lanes = s.lanes := by
  unfold State.endPassCancelled
  split
  · rfl
  · simp

@[simp] theorem lanes_cutStream (j) : (s.cutStream j).lanes = s.lanes := by unfold State.cutStream; simp

@[simp] theorem lanes_stopJob (j e) : (s.stopJob j e).lanes = s.lanes := by
  unfold State.stopJob
  dsimp only
  split
  · simp
  · split
    · split <;> simp
    · simp

@[simp] theorem lanes_afterStop (j) : (s.afterStop j).lanes = s.lanes := by unfold State.afterStop; split <;> simp

theorem lanes_resetJobs : ∀ (js : List Job) (s : State), (s.resetJobs js).lanes = s.lanes
  | [], _ => rfl
  | j :: rest, s => (lanes_resetJobs rest (s.stopJob j (.cancelled .driveReset))).trans (lanes_stopJob ..)

@[simp] theorem lanes_afterReset (a) : (s.afterReset a).lanes = s.lanes := by unfold State.afterReset; split <;> simp

theorem lanes_openEntries (keys : List Key) (size quorum : Nat) : ∀ s : State, (s.openEntries keys size quorum).lanes = s.lanes := by
  unfold State.openEntries
  induction keys with
  | nil => exact fun _ => rfl
  | cons k rest ih =>
    intro s
    rw [List.foldl_cons, ih]
    unfold State.openEntry
    split <;> rfl

@[simp] theorem lanes_openJob (c r found) : (s.openJob c r found).lanes = s.lanes := by
  unfold State.openJob
  dsimp only
  simp [lanes_openEntries]

@[simp] theorem lanes_removeEntries (gone) : (s.removeEntries gone).lanes = s.lanes := by
  unfold State.removeEntries; rw [lanes_returnFrames]; rfl

@[simp] theorem lanes_retireWhere (c name p scope) : (s.retireWhere c name p scope).lanes = s.lanes := by
  unfold State.retireWhere; simp

@[simp] theorem lanes_answerSynth (c key via e) : (s.answerSynth c key via e).lanes = s.lanes := by
  unfold State.answerSynth; split <;> rfl

@[simp] theorem lanes_setPinned (k v) : (s.setPinned k v).lanes = s.lanes := rfl

@[simp] theorem lanes_closeTransfer (t o) : (s.closeTransfer t o).lanes = s.lanes := by unfold State.closeTransfer; simp

@[simp] theorem lanes_endTransferEarly (t o) : (s.endTransferEarly t o).lanes = s.lanes := by
  unfold State.endTransferEarly; split <;> simp

end operations

/-! ## The commands -/

/-- No command but RESTART changes a command queue. -/
theorem lanes_perform (s : State) (c : Ctx) (command : HostCommand) (h : command ≠ .restart) : (s.perform c command).lanes = s.lanes := by
  cases command with
  | restart => exact absurd rfl h
  | unknown code => rfl
  | driveConfig port f => unfold State.perform; dsimp only; unfold State.driveConfig; dsimp only; (repeat' split); all_goals rfl
  | park port => unfold State.perform; dsimp only; unfold State.park; dsimp only; (repeat' split); all_goals rfl
  | retension port => unfold State.perform; dsimp only; unfold State.retension; dsimp only; (repeat' split); all_goals rfl
  | driveReset port =>
    unfold State.perform; dsimp only; unfold State.driveReset
    try dsimp only
    split
    · rfl
    · rfl
    all_goals rw [lanes_answer, lanes_afterReset, lanes_resetJobs, lanes_updatePort]
  | mount handle g m => unfold State.perform; dsimp only; unfold State.mount; dsimp only; (repeat' split); all_goals (try simp)
  | defineView handle f => unfold State.perform; dsimp only; unfold State.defineView; dsimp only; (repeat' split); all_goals (try simp)
  | confirm handle => unfold State.perform; dsimp only; unfold State.confirm; dsimp only; (repeat' split); all_goals (try simp)
  | unmount handle => unfold State.perform; dsimp only; unfold State.unmount; dsimp only; (repeat' split); all_goals (try simp)
  | describe handle => unfold State.perform; dsimp only; unfold State.describe; (repeat' split); all_goals (try simp)
  | setProfile slot m a => unfold State.perform; dsimp only; unfold State.setProfile; dsimp only; (repeat' split); all_goals rfl
  | clearProfile slot => unfold State.perform; dsimp only; unfold State.clearProfile; dsimp only; (repeat' split); all_goals rfl
  | setDefaults a => unfold State.perform; dsimp only; unfold State.setDefaults; dsimp only; (repeat' split); all_goals rfl
  | readProfile slot => unfold State.perform; dsimp only; unfold State.readProfile; (repeat' split); all_goals rfl
  | probeProfile b => unfold State.perform; dsimp only; unfold State.probeProfile; dsimp only; (repeat' split); all_goals (try simp)
  | readBand b => unfold State.perform; dsimp only; unfold State.readBand; dsimp only; (repeat' split); all_goals (try simp)
  | cancel job => unfold State.perform; dsimp only; unfold State.cancel State.cancelStream State.cancelNow; dsimp only; (repeat' split); all_goals (try simp)
  | hold job n => unfold State.perform; dsimp only; unfold State.hold; dsimp only; (repeat' split); all_goals rfl
  | lookup k w => unfold State.perform; dsimp only; unfold State.lookup; (repeat' split); all_goals (try simp)
  | find k w states => unfold State.perform; dsimp only; unfold State.find; (repeat' split); all_goals (try simp)
  | fetch k n => unfold State.perform; dsimp only; unfold State.fetch; dsimp only; (repeat' split); all_goals (try simp)
  | choose k n => unfold State.perform; dsimp only; unfold State.choose; dsimp only; (repeat' split); all_goals (try simp)
  | amend k check =>
    unfold State.perform; dsimp only; unfold State.amend
    try dsimp only
    repeat' split
    all_goals (try simp)
    rename_i hc
    exact lanes_claimFrame hc
  | retire k => unfold State.perform; dsimp only; unfold State.retire; (repeat' split); all_goals (try simp)
  | retireBand b scope => unfold State.perform; dsimp only; unfold State.retireBand; (repeat' split); all_goals (try simp)
  | retireVolume handle scope => unfold State.perform; dsimp only; unfold State.retireVolume; (repeat' split); all_goals (try simp)
  | synthesize k =>
    unfold State.perform; dsimp only; unfold State.synthesize
    try dsimp only
    repeat' split
    all_goals (try simp)
    rename_i hc
    exact lanes_synthArrive hc
  | abortTransfer => unfold State.perform; dsimp only; unfold State.abortTransfer; (repeat' split); all_goals (try simp)
  | setTransferLevel level => rfl
  | status part n => unfold State.perform; dsimp only; unfold State.status; (repeat' split); all_goals rfl
  | clearFlags flags => unfold State.perform; dsimp only; unfold State.clearFlags; split; all_goals rfl

/-- RESTART empties both lists; every other command leaves both queues. -/
theorem judge_lanes (s : State) (c : Ctx) (command : HostCommand) :
    (s.judge c command).lanes = s.lanes
      ∨ ((s.judge c command).link.console.records = [] ∧ (s.judge c command).link.transfer.records = []) := by
  unfold State.judge
  repeat' split
  · exact .inl rfl
  · exact .inl rfl
  · exact .inl rfl
  · by_cases h : command = .restart
    · subst h
      refine .inr ?_
      have hl : ∀ t : State, t.lanes = (s.setLink s.link.restart).lanes → t.link.console.records = [] ∧ t.link.transfer.records = [] := by
        intro t ht
        have h1 : t.link.console = s.link.restart.console := congrArg Prod.fst ht
        have h2 : t.link.transfer = s.link.restart.transfer := congrArg Prod.snd ht
        rw [h1, h2]
        exact ⟨rfl, rfl⟩
      have habandon : ∀ (rs : List SynthRequest) (t : State), (t.abandon rs).lanes = t.lanes := by
        intro rs
        induction rs with
        | nil => exact fun _ => rfl
        | cons r rest ih => intro t; unfold State.abandon; split <;> rw [ih]; rfl
      have hjobs : ∀ (js : List Job) (t : State), (t.endJobs js).lanes = t.lanes := by
        intro js
        induction js with
        | nil => exact fun _ => rfl
        | cons j rest ih => intro t; unfold State.endJobs; rw [ih]; simp
      have htransfer : ∀ t : State, t.stopTransfer.lanes = t.lanes := fun t => by unfold State.stopTransfer; split <;> simp
      have hsynth : ∀ t : State, t.stopSynth.lanes = t.lanes := fun t => by unfold State.stopSynth; dsimp only; split <;> simp
      apply hl
      unfold State.perform State.restart
      simp only [lanes_answer]
      unfold State.restartPorts State.restartChannels
      rw [lanes_setPorts, hsynth, htransfer, lanes_setInput, lanes_setWaits, lanes_updateChannel, lanes_updateChannel, hjobs, habandon]
    · exact .inl (lanes_perform s c command h)

/-! ## The intake -/

/-- The number of records that wait. -/
def State.waiting (s : State) : Nat := s.link.console.records.length + s.link.transfer.records.length

theorem intakeLoop_nothing {s : State} (h : s.link.console.records = [] ∧ s.link.transfer.records = []) (n : Nat) : s.intakeLoop n = s := by
  have hn : s.link.nextRecord = none := by
    unfold Link.nextRecord
    cases s.link.preference <;> simp [Link.lane, otherQueue, h.1, h.2]
  cases n with
  | zero => rfl
  | succ n =>
    unfold State.intakeLoop
    rw [hn]
    split <;> rfl

theorem nextRecord_lane {l : Link} {q : Queue} {r : Record} {rest : List Record} (h : l.nextRecord = some (q, r, rest)) :
    (l.lane q).records = r :: rest := by
  unfold Link.nextRecord at h
  split at h
  · rename_i hr; cases h; exact hr
  · split at h
    · rename_i hr; cases h; exact hr
    · simp at h

/-- A taking removes one record, or, a RESTART, them all. -/
theorem take_waiting {s : State} {q : Queue} {r : Record} {rest : List Record} (h : (s.link.lane q).records = r :: rest) :
    (s.take q r rest).waiting + 1 = s.waiting
      ∨ ((s.take q r rest).link.console.records = [] ∧ (s.take q r rest).link.transfer.records = []) := by
  have hj := judge_lanes ((s.setLink { s.link.setLane q { s.link.lane q with records := rest } with preference := otherQueue q }).reserve)
    (s.ctxOf q r) r.command
  rcases hj with hj | hj
  · refine .inl ?_
    have h1 : (s.take q r rest).link.console = (s.link.setLane q { s.link.lane q with records := rest }).console := congrArg Prod.fst hj
    have h2 : (s.take q r rest).link.transfer = (s.link.setLane q { s.link.lane q with records := rest }).transfer := congrArg Prod.snd hj
    unfold State.waiting
    rw [h1, h2]
    cases q <;> simp only [Link.lane, Link.setLane] at h ⊢ <;> rw [h] <;> simp <;> omega
  · exact .inr hj

/-- The bound of the intake loop is no bound where it is not below the number of records that wait. -/
theorem intakeLoop_bound : ∀ (n m : Nat) (s : State), s.waiting ≤ n → s.waiting ≤ m → s.intakeLoop n = s.intakeLoop m
  | 0, m, s, hn, _ => by
    have : s.waiting = 0 := Nat.le_zero.1 hn
    unfold State.waiting at this
    exact (intakeLoop_nothing (s := s) ⟨List.length_eq_zero_iff.1 (by omega), List.length_eq_zero_iff.1 (by omega)⟩ m).symm
  | n + 1, 0, s, _, hm => by
    have : s.waiting = 0 := Nat.le_zero.1 hm
    unfold State.waiting at this
    exact intakeLoop_nothing (s := s) ⟨List.length_eq_zero_iff.1 (by omega), List.length_eq_zero_iff.1 (by omega)⟩ _
  | n + 1, m + 1, s, hn, hm => by
    unfold State.intakeLoop
    split
    · cases hr : s.link.nextRecord with
      | none => rfl
      | some x =>
        obtain ⟨q, r, rest⟩ := x
        dsimp only
        rcases take_waiting (nextRecord_lane hr) with h | h
        · exact intakeLoop_bound n m _ (by omega) (by omega)
        · rw [intakeLoop_nothing h, intakeLoop_nothing h]
    · rfl

/-- The intake takes the record that is due and judges its condition again (R189). -/
theorem intake_takes {s : State} {q : Queue} {r : Record} {rest : List Record} (hp : 2 ≤ s.link.freePlaces)
    (h : (s.link.lane q).records = r :: rest) (hq : q = s.link.preference ∨ (s.link.lane s.link.preference).records = []) :
    s.intake = (s.take q r rest).intake := by
  have hn : s.link.nextRecord = some (q, r, rest) := by
    unfold Link.nextRecord
    rcases hq with rfl | hq
    · rw [h]
    · have : q = otherQueue s.link.preference := by
        cases hpq : s.link.preference <;> cases q <;> rw [hpq] at hq <;> first | rfl | (rw [h] at hq; simp at hq)
      rw [hq]
      dsimp only
      rw [← this, h]
  have hw : ∃ n, s.waiting = n + 1 := by
    refine ⟨s.waiting - 1, ?_⟩
    have : 1 ≤ s.waiting := by
      unfold State.waiting
      cases q <;> simp only [Link.lane] at h <;> rw [h] <;> simp <;> omega
    omega
  obtain ⟨n, hw⟩ := hw
  show s.intakeLoop s.waiting = (s.take q r rest).intakeLoop (s.take q r rest).waiting
  rw [hw, State.intakeLoop, if_pos (show Config.intakePlaces ≤ _ from hp), hn]
  dsimp only
  rcases take_waiting h with hk | hk
  · exact intakeLoop_bound _ _ _ (by omega) le_rfl
  · rw [intakeLoop_nothing hk, intakeLoop_nothing hk]

/-- Without 2 free places the intake takes nothing (R189). -/
theorem intake_stalled {s : State} (h : s.link.freePlaces < 2) : s.intake = s := by
  unfold State.intake
  cases s.link.console.records.length + s.link.transfer.records.length with
  | zero => rfl
  | succ n =>
    unfold State.intakeLoop
    rw [if_neg (by show ¬2 ≤ _; omega)]

end Sys2Proof.Machine
end

