-- ==== Sys2Proof/Laws/Memory.lean ====
section
/-! SUPPORT. Buffer memory: its canonical form is kept, and a byte reads as it was last stored. -/

namespace Sys2Proof.Machine.Memory

theorem wf_cons {c : Host.Cell} {m : Memory} :
    wf (c :: m) = true ↔ c.2 ≠ Config.unwrittenByte ∧ (∀ d, m.head? = some d → c.1 < d.1) ∧ wf m = true := by
  cases m with
  | nil => simp [wf]
  | cons d rest => simp [wf, and_assoc]

/-- The canonical form in terms of membership and order. -/
theorem wf_iff (m : Memory) :
    wf m = true ↔ (∀ c ∈ m, c.2 ≠ Config.unwrittenByte) ∧ m.Pairwise (fun c d => c.1 < d.1) := by
  induction m with
  | nil => simp [wf]
  | cons c m ih =>
    rw [wf_cons, ih]
    constructor
    · rintro ⟨h, hd, hm, hp⟩
      refine ⟨by simpa [h] using hm, List.pairwise_cons.2 ⟨?_, hp⟩⟩
      intro d hdm
      cases m with
      | nil => simp at hdm
      | cons x rest =>
        have := hd x rfl
        rcases List.mem_cons.1 hdm with rfl | hr
        · exact this
        · exact lt_trans this ((List.pairwise_cons.1 hp).1 d hr)
    · rintro ⟨hm, hp⟩
      have := List.pairwise_cons.1 hp
      refine ⟨hm c (by simp), ?_, fun d hd => hm d (by simp [hd]), this.2⟩
      intro d hd
      exact this.1 d (List.mem_of_head? hd)

theorem mem_cells (a : Nat) (bytes : List Byte) :
    ∀ c ∈ cells a bytes, c.2 ≠ Config.unwrittenByte ∧ a ≤ c.1 ∧ c.1 < a + bytes.length := by
  induction bytes generalizing a with
  | nil => simp [cells]
  | cons b rest ih =>
    intro c hc
    simp only [cells] at hc
    split at hc
    · have := ih _ c hc
      simp only [List.length_cons]
      exact ⟨this.1, by omega, by omega⟩
    · rename_i hb
      rcases List.mem_cons.1 hc with rfl | h
      · simp only [List.length_cons]
        exact ⟨by simpa using hb, le_refl _, by omega⟩
      · have := ih _ c h
        simp only [List.length_cons]
        exact ⟨this.1, by omega, by omega⟩

theorem cells_rising (a : Nat) (bytes : List Byte) : (cells a bytes).Pairwise (fun c d => c.1 < d.1) := by
  induction bytes generalizing a with
  | nil => simp [cells]
  | cons b rest ih =>
    simp only [cells]
    split
    · exact ih _
    · refine List.pairwise_cons.2 ⟨?_, ih _⟩
      intro d hd
      have := (mem_cells (a + 1) rest d hd).2.1
      simp only; omega

/-- A store keeps the canonical form. -/
theorem wf_write (m : Memory) (a : Nat) (bytes : List Byte) (h : m.wf = true) : (m.write a bytes).wf = true := by
  rw [wf_iff] at h ⊢
  obtain ⟨hv, hp⟩ := h
  unfold write
  constructor
  · intro c hc
    simp only [List.mem_append, List.mem_filter] at hc
    rcases hc with (hc | hc) | hc
    · exact hv c hc.1
    · exact (mem_cells a bytes c hc).1
    · exact hv c hc.1
  · rw [List.pairwise_append, List.pairwise_append]
    refine ⟨⟨hp.filter _, cells_rising a bytes, ?_⟩, hp.filter _, ?_⟩
    · intro c hc d hd
      have h1 := (List.mem_filter.1 hc).2
      have h2 := (mem_cells a bytes d hd).2.1
      simp at h1; omega
    · intro c hc d hd
      have h2 := (List.mem_filter.1 hd).2
      simp at h2
      rcases List.mem_append.1 hc with hc | hc
      · have h1 := (List.mem_filter.1 hc).2
        simp at h1; omega
      · have := (mem_cells a bytes c hc).2.2
        omega

/-! ## Reads -/

theorem read_append (m n : Memory) (a : Nat) (h : ∀ c ∈ m, c.1 ≠ a) : read (m ++ n) a = read n a := by
  induction m with
  | nil => rfl
  | cons c m ih =>
    have hc : c.1 ≠ a := h c (by simp)
    simp only [List.cons_append, read, beq_iff_eq, hc, if_false]
    exact ih fun d hd => h d (by simp [hd])

theorem read_none (m : Memory) (a : Nat) (h : ∀ c ∈ m, c.1 ≠ a) : read m a = Config.unwrittenByte := by
  have := read_append m [] a h
  simpa [read] using this

theorem read_filter (m : Memory) (p : Host.Cell → Bool) (a : Nat) (h : ∀ b, p (a, b) = true) : read (m.filter p) a = read m a := by
  induction m with
  | nil => rfl
  | cons c m ih =>
    by_cases hc : c.1 = a
    · have : p c = true := by rw [← hc] at h; exact h c.2
      simp [this, read, hc]
    · simp only [List.filter_cons]
      split
      · simpa [read, hc] using ih
      · simpa [read, hc] using ih

theorem read_append_some (m n : Memory) (a : Nat) (h : ∀ c ∈ n, c.1 ≠ a) : read (m ++ n) a = read m a := by
  induction m with
  | nil => simpa [read] using read_none n a h
  | cons c m ih =>
    simp only [List.cons_append, read]
    split
    · rfl
    · exact ih

theorem read_cells (a i : Nat) (bytes : List Byte) (h : i < bytes.length) : read (cells a bytes) (a + i) = bytes[i] := by
  induction bytes generalizing a i with
  | nil => simp at h
  | cons b rest ih =>
    cases i with
    | zero =>
      simp only [cells, Nat.add_zero, List.getElem_cons_zero]
      split
      · rename_i hb
        rw [read_none]
        · exact (eq_of_beq hb).symm
        · intro c hc
          have := (mem_cells (a + 1) rest c hc).2.1
          omega
      · simp [read]
    | succ i =>
      have hi : i < rest.length := by simpa using h
      have : a + (i + 1) = a + 1 + i := by omega
      simp only [cells, List.getElem_cons_succ]
      split
      · rw [this]; exact ih (a + 1) i hi
      · simp only [read]
        rw [if_neg (by simp), this]
        exact ih (a + 1) i hi

/-- A stored byte reads as stored. -/
theorem read_write_inside (m : Memory) (a i : Nat) (bytes : List Byte) (h : i < bytes.length) :
    (m.write a bytes).read (a + i) = bytes[i] := by
  unfold write
  rw [List.append_assoc, read_append, read_append_some, read_cells a i bytes h]
  · intro c hc
    have := (List.mem_filter.1 hc).2
    simp at this; omega
  · intro c hc
    have := (List.mem_filter.1 hc).2
    simp at this; omega

/-- Every byte outside the stored ones reads as before. -/
theorem read_write_outside (m : Memory) (a x : Nat) (bytes : List Byte) (h : x < a ∨ a + bytes.length ≤ x) :
    (m.write a bytes).read x = m.read x := by
  unfold write
  rcases h with h | h
  · rw [List.append_assoc, read_append_some, read_filter]
    · intro b; simpa using h
    · intro c hc
      rcases List.mem_append.1 hc with hc | hc
      · have := (mem_cells a bytes c hc).2.1
        omega
      · have := (List.mem_filter.1 hc).2
        simp at this; omega
  · rw [read_append, read_filter]
    · intro b; simpa using h
    · intro c hc
      rcases List.mem_append.1 hc with hc | hc
      · have := (List.mem_filter.1 hc).2
        simp at this; omega
      · have := (mem_cells a bytes c hc).2.2
        omega

/-- A block reads byte by byte. -/
theorem readBlock_length (m : Memory) (a n : Nat) : (m.readBlock a n).length = n := by
  induction n generalizing a with
  | zero => rfl
  | succ n ih => simp [readBlock, ih]

theorem readBlock_getElem (m : Memory) (a n i : Nat) (h : i < n) : (m.readBlock a n)[i]? = some (m.read (a + i)) := by
  induction n generalizing a i with
  | zero => omega
  | succ n ih =>
    cases i with
    | zero => simp [readBlock]
    | succ i =>
      simp only [readBlock, List.getElem?_cons_succ]
      rw [ih (a + 1) i (by omega)]
      congr 2; omega

theorem readBlock_eq_map (m : Memory) (a n : Nat) : m.readBlock a n = (List.range n).map fun i => m.read (a + i) := by
  refine List.ext_getElem? fun i => ?_
  by_cases h : i < n
  · rw [readBlock_getElem m a n i h]; simp [h]
  · rw [List.getElem?_eq_none (by rw [readBlock_length]; omega), List.getElem?_eq_none (by simpa using h)]

end Sys2Proof.Machine.Memory

namespace Sys2Proof.Machine

/-- A write to a frame keeps the canonical form. -/
theorem writeFrame_wf (s : State) (frame offset : Nat) (bytes : List Byte) (h : s.memory.wf = true) :
    (s.writeFrame frame offset bytes).memory.wf = true := Memory.wf_write _ _ _ h

/-- A write to a frame touches no byte of another frame. -/
theorem writeFrame_other (s : State) (frame offset a : Nat) (bytes : List Byte)
    (h : a < frameAddress frame ∨ frameAddress (frame + 1) ≤ a) :
    (s.writeFrame frame offset bytes).memory.read a = s.memory.read a := by
  apply Memory.read_write_outside
  simp only [frameAddress, Config.frameBytes, List.length_take, Nat.add_mul, Nat.one_mul] at *
  generalize frame * 1024 = base at *
  generalize bytes.length = n
  rcases Nat.lt_or_ge a (base + offset) with hl | hl
  · exact .inl hl
  · refine .inr ?_
    omega

end Sys2Proof.Machine
end

