-- ==== Sys2Proof/Laws/Passes.lean ====
section
/-! SUPPORT. What the shared operations of a pass can do, said once in the terms of Safety.lean: a grant and the start of a stream, the
leaving of a job, a close, and the judgement of a drained pass. -/

namespace Sys2Proof.Machine

/-! ## One job's record -/

/-- No two jobs of the table have one id (R61). -/
abbrev State.OneId (s : State) : Prop := s.jobs.Pairwise fun a b => a.id ≠ b.id

theorem State.JobsSound.oneId {s : State} (h : s.JobsSound) : s.OneId := h.apart.imp fun a => a.1

theorem updateJob_eq_withJob {s : State} (hs : s.OneId) {j k : Job} (hj : s.job j.id = some j) {f : Job → Job} (hk : f j = k)
    (hid : k.id = j.id) : s.updateJob j.id f = s.withJob k := by
  subst hk
  unfold State.updateJob State.withJob State.setJobs
  rw [hid]
  congr 1
  apply List.map_congr_left
  intro x hx
  by_cases e : x.id = j.id
  · have : x = j := by
      have hm := (job_mem hj).1
      by_contra hne
      obtain ⟨i, hi, rfl⟩ := List.getElem_of_mem hx
      obtain ⟨n, hn, hjn⟩ := List.getElem_of_mem hm
      subst hjn
      rcases Nat.lt_trichotomy i n with hlt | heq | hgt
      · exact List.pairwise_iff_getElem.1 hs i n hi hn hlt e
      · subst heq; exact hne rfl
      · exact List.pairwise_iff_getElem.1 hs n i hn hi hgt e.symm
    simp [this]
  · simp [e]

theorem withJob_jobs (s : State) (j : Job) : (s.withJob j).jobs = s.jobs.map fun x => if x.id == j.id then j else x := rfl

/-- A later change of the same job takes the place of an earlier one. -/
theorem updateJob_withJob (s : State) {j k : Job} {id : Nat} {f : Job → Job} (hj : j.id = id) (hk : f j = k) (hid : k.id = id) :
    (s.withJob j).updateJob id f = s.withJob k := by
  subst hk hj
  unfold State.updateJob State.withJob State.setJobs
  simp only [List.map_map, hid]
  congr 1
  apply List.map_congr_left
  intro x _
  by_cases e : x.id = j.id <;> simp [e]

theorem withJob_withJob (s : State) {j k : Job} (h : k.id = j.id) : (s.withJob j).withJob k = s.withJob k := by
  unfold State.withJob
  simp only [List.map_map, h]
  congr 1
  apply List.map_congr_left
  intro x _
  by_cases e : x.id = j.id <;> simp [e]

theorem withJob_oneId {s : State} (hs : s.OneId) (j : Job) : (s.withJob j).OneId := by
  have hid : ∀ x : Job, (if x.id == j.id then j else x).id = x.id := by
    intro x; by_cases e : x.id = j.id <;> simp [e]
  show ((s.jobs.map _)).Pairwise _
  rw [List.pairwise_map]
  exact hs.imp fun h => by simpa only [hid] using h

theorem find_withJob (l : List Job) {j k : Job} {id : Nat} (hj : l.find? (fun x => x.id == id) = some j) (hk : k.id = id) :
    (l.map fun x => if x.id == k.id then k else x).find? (fun x => x.id == id) = some k := by
  induction l with
  | nil => simp at hj
  | cons x rest ih =>
    by_cases e : x.id = id
    · simp [e, hk]
    · have : rest.find? (fun x => x.id == id) = some j := by simpa [e] using hj
      simp [e, hk]
      simpa [hk] using ih this

theorem job_withJob {s : State} {j k : Job} {id : Nat} (hj : s.job id = some j) (hk : k.id = id) : (s.withJob k).job id = some k :=
  find_withJob s.jobs hj hk

theorem job_withJob_other {s : State} {k : Job} {id : Nat} (hk : k.id ≠ id) : (s.withJob k).job id = s.job id := by
  unfold State.job State.withJob
  induction s.jobs with
  | nil => rfl
  | cons x rest ih =>
    by_cases e : x.id = k.id
    · have h1 : ¬ k.id = id := hk
      simp only [List.map_cons, e, beq_self_eq_true, if_true, List.find?_cons]
      simp only [beq_eq_false_iff_ne.2 h1]
      exact ih
    · simp only [List.map_cons, beq_eq_false_iff_ne.2 e, List.find?_cons]
      simp only [Bool.false_eq_true, if_false]
      rw [ih]

/-! ## Fields a change of a job or of a channel leaves alone -/

@[simp] theorem withJob_port (s : State) (j : Job) (p : Fin 4) : (s.withJob j).port p = s.port p := rfl
@[simp] theorem withJob_medium (s : State) (j : Job) (h : Nat) : (s.withJob j).medium h = s.medium h := rfl
@[simp] theorem setChannel_port (s : State) (c : ChannelName) (v : Channel) (p : Fin 4) : (s.setChannel c v).port p = s.port p := by
  cases c <;> rfl
@[simp] theorem setChannel_medium (s : State) (c : ChannelName) (v : Channel) (h : Nat) : (s.setChannel c v).medium h = s.medium h := by
  cases c <;> rfl
theorem setChannel_self (s : State) (c : ChannelName) : s.setChannel c (s.channel c) = s := by cases c <;> rfl
theorem updateJob_setChannel (s : State) (c : ChannelName) (v : Channel) (id : Nat) (f : Job → Job) :
    (s.setChannel c v).updateJob id f = (s.updateJob id f).setChannel c v := by cases c <;> rfl
theorem updatePort_setChannel (s : State) (c : ChannelName) (v : Channel) (p : Fin 4) (f : Port → Port) :
    (s.setChannel c v).updatePort p f = (s.updatePort p f).setChannel c v := by cases c <;> rfl
theorem updateChannel_eq (s : State) (c : ChannelName) (f : Channel → Channel) : s.updateChannel c f = s.setChannel c (f (s.channel c)) := rfl

/-! ## A grant and the start of a stream -/

theorem dropReceipt_of_none {ch : Channel} (h : ch.receipt = none) : ch.dropReceipt = ch := by
  unfold Channel.dropReceipt; simp [h]

theorem toFree_of_none {ch : Channel} (h : ch.receipt = none) : ch.toFree = ch.freed := by
  unfold Channel.toFree; rw [dropReceipt_of_none h]; rfl

theorem retensionDue_iff (p : Port) : p.retensionDue = true ↔ p.kind = .cartridge ∧ p.passCount = p.retensionInterval := by
  simp [Port.retensionDue]

theorem startStream_eq : Port.startStream = Port.streamStarted := by
  funext p
  cases hk : p.kind <;> simp [Port.startStream, Port.streamStarted, Port.restartWatchdog, Port.watchdogTime, Port.ask, hk]

/-- The stream request of a granted job whose port is on the band (R14, R69). -/
theorem requestStream_streams {u : State} {j : Job} {m : Medium} (c : ChannelName) (ch : Channel) (st : JobState)
    (hm : u.medium j.handle = some m) (hb : (u.port j.drive).state = .onBand) (ha : (u.port j.drive).atStart = true)
    (hr : ch.receipt = none) (hd : (u.port j.drive).retensionDue = false) :
    ((u.withJob { j with state := st }).setChannel c ch).requestStream c j
      = (({ u.withJob { j with layout := [], phase := .capturing, progress := false, state := .streaming } with
          ports := u.ports.set j.drive (u.port j.drive).streamStarted } : State).setChannel c
        (ch.passSet ⟨j.passesRun + 1, j.tolerance, j.attributes.startRule, m.kind, m.geometry.encoding, m.geometry.rate⟩), false) := by
  unfold State.requestStream
  simp only [setChannel_medium, withJob_medium, hm, updateJob_setChannel]
  rw [updateJob_withJob u (id := j.id) (j := { j with state := st }) rfl rfl rfl]
  simp only [setChannel_port, withJob_port, Port.canStream, hb, ha, hd]
  simp only [beq_self_eq_true, Bool.and_self, Bool.not_true, Bool.false_eq_true, if_false]
  rw [updateJob_withJob u (id := j.id) (j := Job.beginPass { j with state := st }) rfl rfl rfl]
  simp only [updatePort_setChannel, updateChannel_eq, channel_setChannel, setChannel_setChannel, Prod.mk.injEq, and_true]
  rw [Channel.setUpPass, dropReceipt_of_none hr, startStream_eq]
  rfl

theorem retensionMet_on {p : Port} (h : p.autoRetension = true) : p.retensionMet = p.startRetension := if_pos h

theorem retensionMet_off {p : Port} (h : ¬p.autoRetension = true) : p.retensionMet = p := if_neg h

/-- The stream request of a granted job refused with retension due (R75). -/
theorem requestStream_refused {u : State} {j : Job} {m : Medium} (c : ChannelName) (ch : Channel) (st : JobState)
    (hm : u.medium j.handle = some m) (hb : (u.port j.drive).state = .onBand) (ha : (u.port j.drive).atStart = true)
    (hd : (u.port j.drive).retensionDue = true) :
    ((u.withJob { j with state := st }).setChannel c ch).requestStream c j
      = (({ u.withJob { j.breakHold with layout := [], phase := .capturing, progress := false, state := .retensionWait } with
          ports := u.ports.set j.drive (u.port j.drive).retensionMet } : State).setChannel c ch, true) := by
  have hbreak : ({ (Job.beginPass { j with state := st }).breakHold with state := .retensionWait } : Job)
      = { j.breakHold with layout := [], phase := .capturing, progress := false, state := .retensionWait } := by
    unfold Job.breakHold Job.beginPass
    by_cases h : 0 < j.holdRemaining <;> simp [h]
  have hid : (Job.beginPass { j with state := st }).breakHold.id = j.id := by
    unfold Job.breakHold Job.beginPass; split <;> rfl
  have hid' : ({ j.breakHold with layout := [], phase := .capturing, progress := false, state := .retensionWait } : Job).id = j.id := by
    unfold Job.breakHold; split <;> rfl
  unfold State.requestStream
  simp only [setChannel_medium, withJob_medium, hm, updateJob_setChannel]
  rw [updateJob_withJob u (id := j.id) (j := { j with state := st }) rfl rfl rfl]
  simp only [setChannel_port, withJob_port, Port.canStream, hb, ha, hd]
  simp only [beq_self_eq_true, Bool.and_self, Bool.not_true, Bool.false_eq_true, if_false, if_true]
  rw [updateJob_withJob u (id := j.id) (j := Job.beginPass { j with state := st }) rfl rfl hid]
  unfold State.enterRetensionWait
  simp only [updateJob_setChannel]
  rw [updateJob_withJob u hid hbreak hid']
  simp only [setChannel_port, withJob_port, updatePort_setChannel]
  by_cases hr : (u.port j.drive).autoRetension = true
  · rw [if_pos hr, retensionMet_on hr]; rfl
  · rw [if_neg hr, retensionMet_off hr]
    congr 2
    show u.withJob _ = ({ u.withJob _ with ports := u.ports.set j.drive (u.ports.get j.drive) } : State)
    rw [Four.set_get]; rfl

theorem setChannel_waits (s : State) (c : ChannelName) (v : Channel) : (s.setChannel c v).waits = s.waits := by cases c <;> rfl

/-- A release with no wait listed only frees the channel (R96). -/
theorem release_of_no_wait {s : State} (c : ChannelName) (h : s.waits = []) : s.release c = s.setChannel c (s.channel c).toFree := by
  have hw : (s.updateChannel c Channel.toFree).waits = [] := by rw [updateChannel_eq, setChannel_waits, h]
  unfold State.release
  simp only [hw]
  rfl

theorem withJob_self {s : State} (hs : s.OneId) {j : Job} (hj : s.job j.id = some j) : s.withJob j = s := by
  have hu : s.updateJob j.id id = s.withJob j := updateJob_eq_withJob hs hj rfl rfl
  rw [← hu]
  unfold State.updateJob State.setJobs
  have : (s.jobs.map fun x => if x.id == j.id then id x else x) = s.jobs := by
    rw [List.map_congr_left (g := id)]
    · simp
    · intro x _; split <;> rfl
  rw [this]

/-- A close with nothing to mark. -/
theorem setChannel_job (s : State) (c : ChannelName) (v : Channel) (id : Nat) : (s.setChannel c v).job id = s.job id := by cases c <;> rfl
theorem setChannel_oneId {s : State} (h : s.OneId) (c : ChannelName) (v : Channel) : (s.setChannel c v).OneId := by cases c <;> exact h

/-- A job's stream refused gives the channel back (R75). -/
theorem turnedBack_eq (u : State) (c : ChannelName) {ch : Channel} (j : Job) (hn : ch.receipt = none) :
    (({ u.withJob { j.breakHold with layout := [], phase := .capturing, progress := false, state := .retensionWait } with
        ports := u.ports.set j.drive (u.port j.drive).retensionMet } : State).setChannel c ch).updateChannel c Channel.toFree
      = u.turnedBack c ch j := by
  rw [updateChannel_eq, setChannel_setChannel, channel_setChannel, toFree_of_none hn]
  rfl

theorem retensionDue_false {p : Port} (h : p.kind ≠ .cartridge ∨ p.passCount ≠ p.retensionInterval) : p.retensionDue = false := by
  cases e : p.retensionDue
  · rfl
  · have := (retensionDue_iff p).1 e
    rcases h with h | h
    · exact absurd this.1 h
    · exact absurd this.2 h

theorem turnedBack_waits (u : State) (c : ChannelName) (ch : Channel) (j : Job) : (u.turnedBack c ch j).waits = u.waits := by
  unfold State.turnedBack
  rw [setChannel_waits]
  rfl

theorem turnedBack_oneId {u : State} (hs : u.OneId) (c : ChannelName) (ch : Channel) (j : Job) : (u.turnedBack c ch j).OneId := by
  cases c <;>
    exact withJob_oneId hs { j.breakHold with layout := [], phase := .capturing, progress := false, state := .retensionWait }

theorem turnedBack_receipt (u : State) (c : ChannelName) {ch : Channel} (j : Job) (h : ch.receipt = none) :
    ((u.turnedBack c ch j).channel c).receipt = none := by
  unfold State.turnedBack
  rw [channel_setChannel]
  exact h

/-- What a FREE channel brings the waits listed (R75, R95, R96). -/
theorem grantWaiting_regrants (c : ChannelName) : ∀ (l : List Nat) {u : State} (n : Nat), u.OneId → u.waits = l → l.length ≤ n →
    (u.channel c).receipt = none → State.Regrants l u (u.grantWaiting c n) c
  | [], u, 0, _, _, _, _ => rfl
  | [], u, n + 1, _, hw, _, _ => by
    show u.grantWaiting c (n + 1) = u
    rw [State.grantWaiting, hw]
  | id :: rest, u, n + 1, hs, hw, hn, hr => by
    intro k m hk hm hb ha
    obtain rfl : k.id = id := (job_mem hk).2
    have hs' : ({ u with waits := rest } : State).OneId := hs
    have hself : ({ u with waits := rest } : State).withJob { k with state := k.state } = ({ u with waits := rest } : State) :=
      withJob_self hs' (j := k) hk
    have hu : u.grantWaiting c (n + 1)
        = (let r := ((({ u with waits := rest } : State).withJob { k with state := k.state }).setChannel c
              ((u.channel c).grantedTo k)).requestStream c k
           if r.2 then State.grantWaiting c n (r.1.updateChannel c Channel.toFree) else r.1) := by
      rw [hself]
      rw [State.grantWaiting, hw]
      dsimp only
      rw [show (u.setWaits rest).job k.id = some k from hk]
      have hg : (u.setWaits rest).updateChannel c (fun x => x.grant k.id k.drive)
          = ({ u with waits := rest } : State).setChannel c ((u.channel c).grantedTo k) := by cases c <;> rfl
      simp only [hg]
    have hg : ((u.channel c).grantedTo k).receipt = none := hr
    refine ⟨fun hd => ?_, fun hc hp => ?_⟩
    · rw [hu, requestStream_streams (u := { u with waits := rest }) c _ k.state hm hb ha hg (retensionDue_false hd)]
      rfl
    · rw [hu, requestStream_refused (u := { u with waits := rest }) c _ k.state hm hb ha ((retensionDue_iff _).2 ⟨hc, hp⟩)]
      dsimp only
      rw [if_pos rfl, turnedBack_eq { u with waits := rest } c k hg]
      exact grantWaiting_regrants c rest n (turnedBack_oneId hs' c _ k) (turnedBack_waits ..) (Nat.le_of_succ_le_succ hn)
        (turnedBack_receipt _ c k hg)

/-- What the release of a channel brings (R96). -/
theorem release_released {u : State} (hs : u.OneId) {c : ChannelName} (hr : (u.channel c).receipt = none) : u.Released (u.release c) c := by
  unfold State.release
  rw [updateChannel_eq, toFree_of_none hr]
  exact grantWaiting_regrants c _ _ (setChannel_oneId hs c _) (setChannel_waits ..) (by rw [setChannel_waits])
    (by rw [channel_setChannel]; exact hr)

/-- A granted job goes on, and gives its channel back where the stream is refused. -/
theorem startsPass_of_request {u : State} (hs : u.OneId) {j : Job} {m : Medium} (c : ChannelName) (ch : Channel) (st : JobState)
    (hm : u.medium j.handle = some m) {r : State × Bool}
    (hr : r = ((u.withJob { j with state := st }).setChannel c ch).requestStream c j) :
    u.StartsPass (if r.2 then r.1.release c else r.1) c ch j m where
  streams hb ha hn hd := by
    rw [hr, requestStream_streams c ch st hm hb ha hn (retensionDue_false hd)]
    rfl
  refused hb ha hn hk hp := by
    rw [hr, requestStream_refused c ch st hm hb ha ((retensionDue_iff _).2 ⟨hk, hp⟩), if_pos rfl]
    unfold State.release
    rw [turnedBack_eq u c j hn]
    exact grantWaiting_regrants c _ _ (turnedBack_oneId hs c ch j) (turnedBack_waits ..) (by rw [turnedBack_waits])
      (turnedBack_receipt _ c j hn)

theorem channelOf_withJob (s : State) (k : Job) (id : Nat) : (s.withJob k).channelOf id = s.channelOf id := rfl

/-- What a job that enters AWAITING_CHANNEL meets (R69, R95). -/
theorem awaitChannel_spec {u : State} (hs : u.OneId) {j : Job} (hj : u.job j.id = some j) : u.AwaitsChannel (u.awaitChannel j.id) j := by
  have hw : u.updateJob j.id (fun j => { j with state := .awaitingChannel }) = u.withJob { j with state := .awaitingChannel } :=
    updateJob_eq_withJob hs hj rfl rfl
  have hu : u.awaitChannel j.id
      = (match u.channelOf j.id with
        | some c =>
          let r := (u.withJob { j with state := .awaitingChannel }).requestStream c j
          if r.2 then r.1.release c else r.1
        | none =>
          match u.freeChannel with
          | none => (u.withJob { j with state := .awaitingChannel }).setWaits (u.waits ++ [j.id])
          | some c =>
            let r := ((u.withJob { j with state := .awaitingChannel }).updateChannel c (fun ch => ch.grant j.id j.drive)).requestStream c j
            if r.2 then r.1.release c else r.1) := by
    unfold State.awaitChannel
    rw [hj]
    simp only [hw]
    rfl
  refine ⟨fun hc ha hb => ?_, fun c m hc hm hf => ?_, fun c m hc hm => ?_⟩
  · rw [hu, hc]
    simp [State.freeChannel, ha, hb]
    rfl
  · have hfree : u.freeChannel = some c := by
      unfold State.freeChannel
      rcases hf with ⟨rfl, h⟩ | ⟨rfl, h, h'⟩
      · simp [h]
      · simp [h, h']
    rw [hu, hc]
    simp only [hfree]
    exact startsPass_of_request hs c _ .awaitingChannel hm (by rw [updateChannel_eq]; cases c <;> rfl)
  · rw [hu, hc]
    refine startsPass_of_request hs c _ .awaitingChannel hm ?_
    congr 1
    exact (setChannel_self (u.withJob { j with state := .awaitingChannel }) c).symm

/-! ## A job positions and starts -/

/-- Whether a port's conditions hold as it enters POSITIONING (R8 to R10). -/
theorem positionRequest_arrived (p : Port) (b : BandAddress) (f : Encoding × DataRate) :
    (p.positionRequest b f).arrived = true
      ↔ p.kind ≠ .cartridge ∧ p.motor = true ∧ p.ready = true ∧ p.spinUp = false ∧ p.headCylinder = some b.cylinder := by
  have hc : ∀ (c : Nat), c < b.cylinder → ¬c = b.cylinder := fun c h e => by omega
  have hc' : ∀ (c : Nat), b.cylinder < c → ¬c = b.cylinder := fun c h e => by omega
  unfold Port.positionRequest Port.arrived
  cases hk : p.kind with
  | cartridge => simp [Port.ask, Port.enterPositioning, hk]
  | floppy | noDrive =>
    cases hm : p.motor <;> cases hh : p.headCylinder with
    | none =>
      simp [Port.ask, Port.enterPositioning, Port.motorStart, Port.startMotion, Port.stepOutward, Port.onTarget, hk, hm, hh]
    | some c =>
      by_cases h1 : c < b.cylinder
      · by_cases h2 : c + 1 = b.cylinder <;>
          simp [Port.ask, Port.enterPositioning, Port.motorStart, Port.startMotion, Port.seekStep, Port.seekSettled, Port.stepInward, Port.onTarget,
            hk, hm, hh, h1, h2, hc c h1]
      · by_cases h2 : b.cylinder < c
        · by_cases h3 : c - 1 = b.cylinder <;>
            simp [Port.ask, Port.enterPositioning, Port.motorStart, Port.startMotion, Port.seekStep, Port.seekSettled, Port.stepOutward, Port.onTarget,
              hk, hm, hh, h1, h2, h3, hc' c h2]
        · have h3 : c = b.cylinder := by omega
          simp [Port.ask, Port.enterPositioning, Port.motorStart, Port.startMotion, Port.seekStep, Port.seekSettled, Port.onTarget,
            hk, hm, hh, h3]

/-- How a job enters POSITIONING (R8 to R10, R66). -/
theorem positionJob_spec {u : State} (hs : u.OneId) {j : Job} {m : Medium} (hj : u.job j.id = some j) (hm : u.medium j.handle = some m) :
    u.Positions (u.positionJob j) j m := by
  have hu : u.positionJob j
      = (if ((u.port j.drive).positionRequest j.band m.format).arrived = true then
          (({ u.withJob { j with state := .positioning } with
              ports := u.ports.set j.drive ((u.port j.drive).positionRequest j.band m.format).enterOnBand } : State).awaitChannel j.id)
        else { u.withJob { j with state := .positioning } with
              ports := u.ports.set j.drive ((u.port j.drive).positionRequest j.band m.format) }) := by
    unfold State.positionJob
    rw [hm]
    dsimp only
    rw [updateJob_eq_withJob (k := { j with state := .positioning }) hs hj rfl rfl]
    simp only [port_updatePort_self, updatePort_updatePort]
    rfl
  refine ⟨fun h => ?_, fun h1 h2 h3 h4 h5 => ?_⟩
  · rw [hu, if_neg]
    · rfl
    · rw [positionRequest_arrived]
      rintro ⟨h1, h2, h3, h4, h5⟩
      rcases h with h | h | h | h | h <;> simp_all [Job.band]
  · rw [hu, if_pos ((positionRequest_arrived _ _ _).2 ⟨h1, h2, h3, h4, h5⟩)]
    refine awaitChannel_spec (j := { j with state := .positioning }) (u := ({ u.withJob { j with state := .positioning } with
        ports := u.ports.set j.drive ((u.port j.drive).positionRequest j.band m.format).enterOnBand } : State)) (withJob_oneId hs _) ?_
    exact job_withJob (k := { j with state := .positioning }) hj rfl

/-- How a queued job starts on its port (R64). -/
theorem startJob_spec {u : State} (hs : u.OneId) {j : Job} {m : Medium} (hj : u.job j.id = some j) (hm : u.medium j.handle = some m) :
    u.Starts (u.startJob j) j m := by
  have hdue : ∀ {p : Port}, p.kind ≠ .cartridge ∨ p.passCount ≠ p.retensionInterval → ¬p.retensionDue = true := fun h e => by
    obtain ⟨h1, h2⟩ := (retensionDue_iff _).1 e
    rcases h with h | h
    · exact h h1
    · exact h h2
  refine ⟨fun h1 h2 => ?_, fun h h1 h2 h3 => ?_, fun h h1 => ?_⟩
  · unfold State.startJob
    dsimp only
    rw [if_pos ((retensionDue_iff _).2 ⟨h1, h2⟩)]
    unfold State.enterRetensionWait
    dsimp only
    rw [updateJob_eq_withJob (k := { j with state := .retensionWait }) hs hj rfl rfl]
    rw [withJob_port]
    by_cases ha : (u.port j.drive).autoRetension = true
    · rw [if_pos ha, retensionMet_on ha]; rfl
    · rw [if_neg ha, retensionMet_off ha]
      show u.withJob _ = ({ u.withJob _ with ports := u.ports.set j.drive (u.ports.get j.drive) } : State)
      rw [Four.set_get]; rfl
  · unfold State.startJob
    dsimp only
    rw [if_neg (hdue h), if_pos (by simp [h1, h2, h3, Job.band])]
    exact awaitChannel_spec hs hj
  · unfold State.startJob
    dsimp only
    rw [if_neg (hdue h), if_neg]
    · exact positionJob_spec hs hj hm
    · intro h2
      simp only [Bool.and_eq_true, beq_iff_eq] at h2
      rcases h1 with h1 | h1 | h1
      · exact h1 h2.1.1
      · exact h1 h2.1.2
      · rw [h1] at h2; exact Bool.false_ne_true h2.2

/-! ## A job leaves -/

theorem startPark_eq : Port.startPark = Port.parkStarted := by
  funext p
  unfold Port.startPark Port.parkStarted
  cases hk : p.kind <;> cases hm : p.motor <;>
    simp [Port.ask, Port.motorStart, Port.stepOutward, Config.overtime, Config.stepInterval]

/-- A job's notice posts, and the job is out of the table (R63). -/
theorem postNotice_eq {u : State} {j : Job} {e : Ending} (hj : u.job j.id = some j) (he : j.ending = some e) : u.postNotice j.id = u.left j e := by
  unfold State.postNotice
  rw [hj]
  simp only [he]
  rfl

theorem breakHold_id (j : Job) : j.breakHold.id = j.id := by unfold Job.breakHold; split <;> rfl
theorem breakHold_ending (j : Job) : j.breakHold.ending = j.ending := by unfold Job.breakHold; split <;> rfl
theorem decide_id (j : Job) (e : Ending) : (j.decide e).id = j.id := by unfold Job.decide; split <;> exact breakHold_id j
theorem decide_ending (j : Job) (e : Ending) : (j.decide e).ending = some (j.ending.getD e) := by
  unfold Job.decide
  split
  · rename_i h; rw [h]; rfl
  · rename_i f h; rw [breakHold_ending, h]; rfl
theorem decide_state (j : Job) (e : Ending) : (j.decide e).state = j.state := by
  unfold Job.decide Job.breakHold; split <;> split <;> rfl
theorem decide_drive (j : Job) (e : Ending) : (j.decide e).drive = j.drive := by
  unfold Job.decide Job.breakHold; split <;> split <;> rfl
theorem decide_attributes (j : Job) (e : Ending) : (j.decide e).attributes = j.attributes := by
  unfold Job.decide Job.breakHold; split <;> split <;> rfl

theorem left_withJob (u : State) {j k : Job} (e : Ending) (hid : k.id = j.id) : (u.withJob j).left k e = u.left k e := by
  have hf : (u.withJob j).jobs.filter (fun x => x.id != k.id) = u.jobs.filter fun x => x.id != k.id := by
    rw [withJob_jobs, hid]
    induction u.jobs with
    | nil => rfl
    | cons x rest ih =>
      by_cases h : x.id = j.id
      · simpa [h] using ih
      · simpa [h] using ih
  unfold State.left
  rw [hf]
  rfl

theorem left_oneId {u : State} (hs : u.OneId) (j : Job) (e : Ending) : (u.left j e).OneId := List.Pairwise.filter _ hs

theorem left_length {u : State} {j k : Job} (e : Ending) (hj : j ∈ u.jobs) (hid : k.id = j.id) : (u.left k e).jobs.length < u.jobs.length := by
  show (u.jobs.filter fun x => x.id != k.id).length < _
  exact List.length_filter_lt_length_iff_exists.2 ⟨j, hj, by simp [hid]⟩

/-- A job of a table of different ids is found under its id. -/
theorem job_oneId {u : State} (hs : u.OneId) {j : Job} (hj : j ∈ u.jobs) : u.job j.id = some j := by
  cases hf : u.job j.id with
  | none => exact absurd (List.find?_eq_none.1 hf j hj) (by simp)
  | some x =>
    obtain ⟨hx, hid⟩ := job_mem hf
    congr 1
    by_contra hne
    obtain ⟨i, hi, rfl⟩ := List.getElem_of_mem hx
    obtain ⟨k, hk, rfl⟩ := List.getElem_of_mem hj
    rcases Nat.lt_trichotomy i k with hlt | heq | hgt
    · exact List.pairwise_iff_getElem.1 hs i k hi hk hlt hid
    · subst heq; exact hne rfl
    · exact List.pairwise_iff_getElem.1 hs k i hk hi hgt hid.symm

theorem offerLoop_spec (p : Fin 4) : ∀ (n : Nat) {u : State}, u.OneId → u.jobs.length ≤ n → u.Offers (u.offerLoop p n) p
  | 0, u, _, hn => by
    refine .nothing fun j hj => ?_
    rw [List.length_eq_zero_iff.1 (Nat.le_zero.1 hn)] at hj
    simp at hj
  | n + 1, u, hs, hn => by
    unfold State.offerLoop
    by_cases ho : u.offerable p = true
    · rw [if_pos ho]
      unfold State.offerable at ho
      rw [Bool.and_eq_true] at ho
      have hq := activeJob_isNone.1 ho.1
      have hst : (u.port p).state ∈ [.idle, .onBand] := by simpa using ho.2
      cases hf : u.queuedJob p with
      | none =>
        refine .nothing fun j hj hd => ?_
        have := List.find?_eq_none.1 hf j hj
        simp [hd, hq j hj hd] at this
      | some j =>
        obtain ⟨hm, hd, hjq⟩ := queuedJob_mem hf
        obtain ⟨_, before, after, hsplit, hb⟩ := List.find?_eq_some_iff_append.1 hf
        have hbefore : ∀ x ∈ before, x.drive ≠ p := fun x hx hdx => by
          have := hb x hx
          simp [hdx, hq x (by rw [hsplit]; exact List.mem_append_left _ hx) hdx] at this
        dsimp only
        by_cases hp : u.presentFor j = true
        · rw [if_pos hp]
          unfold State.presentFor at hp
          cases hmed : u.medium j.handle with
          | none => simp [hmed] at hp
          | some m =>
            exact .starts j m before after hst hq hsplit hd hbefore hmed (by simpa [hmed] using hp) (startJob_spec hs (job_oneId hs hm) hmed)
        · rw [if_neg hp]
          refine .passes j before after hst hq hsplit hd hbefore (fun m hmed => ?_) ?_
          · unfold State.presentFor at hp
            simpa [hmed] using hp
          · have hup : u.updateJob j.id (fun j => j.decide (.failed .notPresent)) = u.withJob (j.decide (.failed .notPresent)) :=
              updateJob_eq_withJob hs (job_oneId hs hm) rfl (decide_id j _)
            have hpost := postNotice_eq (u := u.withJob (j.decide (.failed .notPresent))) (j := j.decide (.failed .notPresent))
              (e := j.ending.getD (.failed .notPresent))
              (by rw [decide_id]; exact job_withJob (job_oneId hs hm) (decide_id j _)) (decide_ending j _)
            rw [decide_id, left_withJob _ _ rfl] at hpost
            rw [hup, hpost]
            exact offerLoop_spec p n (left_oneId hs _ _) (by have := left_length (j.ending.getD (.failed .notPresent)) hm (decide_id j (.failed .notPresent)); omega)
    · rw [if_neg ho]
      refine .rests ?_
      unfold State.offerable at ho
      rw [Bool.and_eq_true, not_and_or] at ho
      rcases ho with h | h
      · left
        rw [activeJob_isNone] at h
        push Not at h
        exact h
      · right
        simpa using h

/-- What an offer of a port brings (R64). -/
theorem offer_spec {u : State} (hs : u.OneId) (p : Fin 4) : u.Offers (u.offer p) p := offerLoop_spec p _ hs le_rfl

/-- What a port gets next when a job has left it (R65). -/
theorem afterLeaving_spec {u : State} (hs : u.OneId) {j : Job} {e : Ending} (he : j.ending = some e) : u.Continues (u.afterLeaving j) j e := by
  have hparks : j.parks e = true ↔ j.attributes.park = true ∧ (e = .done ∨ (e = .cancelled .host ∧ j.state ∈ [.streaming, .awaitingChannel])) := by
    unfold Job.parks
    cases j.attributes.park
    · simp
    · cases e with
      | done => simp
      | failed r => simp
      | cancelled r => cases r <;> simp [or_comm]
  have harr : j.parksOnArrival e = true ↔ j.attributes.park = true ∧ e = .cancelled .host ∧ j.state ∈ [.positioning, .reseating] := by
    unfold Job.parksOnArrival
    simp [and_assoc]
  have hu : u.afterLeaving j
      = (if j.parks e && ((u.port j.drive).state == .idle || (u.port j.drive).state == .onBand) then u.updatePort j.drive Port.startPark
        else if j.parksOnArrival e && (u.port j.drive).state == .positioning then u.updatePort j.drive fun p => { p with parkOnArrival := true }
        else u.offer j.drive) := by
    unfold State.afterLeaving
    rw [he]
  refine ⟨fun h1 h2 h3 => ?_, fun h1 h2 h3 h4 => ?_, fun h1 h2 => ?_⟩
  · rw [hu, if_pos, startPark_eq]
    · rfl
    · rw [hparks.2 ⟨h2, h3⟩]
      rcases List.mem_cons.1 h1 with h | h
      · simp [h]
      · simp [List.mem_singleton.1 h]
  · rw [hu, if_neg, if_pos]
    · rfl
    · simp [harr.2 ⟨h2, h3, h4⟩, h1]
    · simp [h1]
  · rw [hu, if_neg, if_neg]
    · exact offer_spec hs _
    · intro h
      rw [Bool.and_eq_true] at h
      obtain ⟨a, b, c⟩ := harr.1 h.1
      exact h2 a b c (by simpa using h.2)
    · intro h
      rw [Bool.and_eq_true] at h
      obtain ⟨a, b⟩ := hparks.1 h.1
      exact h1 a b (by simpa using h.2)

/-- What a job reads of its record as its port goes on: its port, its attributes and its state. -/
theorem Continues_congr {u t : State} {j k : Job} {e : Ending} (hd : k.drive = j.drive) (ha : k.attributes = j.attributes) (hst : k.state = j.state)
    (h : u.Continues t k e) : u.Continues t j e := by
  obtain ⟨h1, h2, h3⟩ := h
  rw [hd, ha, hst] at h1 h2 h3
  exact ⟨h1, h2, h3⟩

/-- What the leaving of a job whose ending is decided makes of its port (R63, R65). -/
theorem finishJob_spec {u : State} (hs : u.OneId) {j : Job} {e : Ending} (hj : u.job j.id = some j) (he : j.ending = some e) :
    u.Leaves (u.finishJob j.id) j e := by
  have hf : u.finishJob j.id = (u.left j e).afterLeaving j := by
    unfold State.finishJob
    rw [hj]
    simp only [postNotice_eq hj he]
  rw [hf]
  exact afterLeaving_spec (left_oneId hs j e) he

/-! ## The marks of a close -/

/-- No two entries of the table have one key (R113). -/
abbrev State.OneKey (s : State) : Prop := s.entries.Pairwise fun a b => a.key ≠ b.key

theorem State.TableSound.oneKey {s : State} (h : s.TableSound) : s.OneKey := by
  refine h.order.imp fun {a b} hab heq => ?_
  rw [heq] at hab
  simp [Key.before] at hab

theorem unique_key {l : List Entry} (h : l.Pairwise fun a b => a.key ≠ b.key) {x y : Entry} (hx : x ∈ l) (hy : y ∈ l) (e : x.key = y.key) :
    x = y := by
  by_contra hne
  obtain ⟨i, hi, rfl⟩ := List.getElem_of_mem hx
  obtain ⟨k, hk, rfl⟩ := List.getElem_of_mem hy
  rcases Nat.lt_trichotomy i k with hlt | heq | hgt
  · exact List.pairwise_iff_getElem.1 h i k hi hk hlt e
  · subst heq; exact hne rfl
  · exact List.pairwise_iff_getElem.1 h k i hk hi hgt e.symm

/-- A change that keeps each key is found under the key it was made at. -/
theorem find_map_key (l : List Entry) (g : Entry → Entry) (hg : ∀ e, (g e).key = e.key) (k : Key) :
    (l.map g).find? (fun e => e.key == k) = (l.find? fun e => e.key == k).map g := by
  induction l with
  | nil => rfl
  | cons x rest ih =>
    simp only [List.map_cons, List.find?_cons, hg]
    split
    · rfl
    · exact ih

theorem markedAtClose_key (e : Entry) : e.markedAtClose.key = e.key := by
  unfold Entry.markedAtClose; split <;> first | rfl | (split <;> rfl)

theorem markedAtClose_idem (e : Entry) : e.markedAtClose.markedAtClose = e.markedAtClose := by
  cases h : e.state <;> cases hp : e.pinned <;> simp [Entry.markedAtClose, h, hp]

/-- Marking keeps the WEAK entries that are pinned, and leaves no other WEAK one. -/
theorem markedAtClose_weak (e : Entry) : (e.markedAtClose.state == .weak && e.markedAtClose.pinned) = (e.state == .weak && e.pinned) := by
  cases h : e.state <;> cases hp : e.pinned <;> simp [Entry.markedAtClose, h, hp]

/-- The mark of a close at one entry of the band. -/
def closeMark (j : Job) (ids : List Nat) (x : Entry) : Entry := if x.key.OfBand j ∧ x.key.sector ∈ ids then x.markedAtClose else x

theorem closeMark_key (j : Job) (ids : List Nat) (x : Entry) : (closeMark j ids x).key = x.key := by
  unfold closeMark; split
  · exact markedAtClose_key x
  · rfl

theorem closeMark_in {j : Job} {ids : List Nat} {x : Entry} (h : x.key.OfBand j ∧ x.key.sector ∈ ids) : closeMark j ids x = x.markedAtClose :=
  if_pos h

theorem closeMark_out {j : Job} {ids : List Nat} {x : Entry} (h : ¬(x.key.OfBand j ∧ x.key.sector ∈ ids)) : closeMark j ids x = x := if_neg h

theorem closeMark_congr {j k : Job} (h : k.handle = j.handle ∧ k.cylinder = j.cylinder ∧ k.head = j.head) (ids : List Nat) :
    closeMark k ids = closeMark j ids := by
  funext x
  simp only [closeMark, Key.OfBand, h.1, h.2.1, h.2.2]

/-- Marking one id and then others is marking them all. -/
theorem closeMark_cons (j : Job) (i : Nat) (ids : List Nat) (x : Entry) : closeMark j ids (closeMark j [i] x) = closeMark j (i :: ids) x := by
  by_cases hi : x.key.OfBand j ∧ x.key.sector = i
  · rw [closeMark_in (ids := [i]) ⟨hi.1, by simp [hi.2]⟩, closeMark_in (ids := i :: ids) ⟨hi.1, by simp [hi.2]⟩]
    by_cases hr : x.key.sector ∈ ids
    · rw [closeMark_in ⟨by rw [markedAtClose_key]; exact hi.1, by rw [markedAtClose_key]; exact hr⟩, markedAtClose_idem]
    · rw [closeMark_out (by rw [markedAtClose_key]; exact fun h => hr h.2)]
  · rw [closeMark_out (ids := [i]) (fun h => hi ⟨h.1, by simpa using h.2⟩)]
    by_cases hr : x.key.OfBand j ∧ x.key.sector ∈ ids
    · rw [closeMark_in hr, closeMark_in ⟨hr.1, List.mem_cons_of_mem _ hr.2⟩]
    · rw [closeMark_out hr, closeMark_out]
      rintro ⟨h1, h2⟩
      rcases List.mem_cons.1 h2 with h | h
      · exact hi ⟨h1, h⟩
      · exact hr ⟨h1, h⟩

theorem markedAt_entries (u : State) (j : Job) (ids : List Nat) (n : Nat) : (u.markedAt j ids n).entries = u.entries.map (closeMark j ids) := rfl

theorem markedAt_entry (u : State) (j : Job) (ids : List Nat) (n : Nat) (k : Key) :
    (u.markedAt j ids n).entry k = (u.entry k).map (closeMark j ids) :=
  find_map_key u.entries _ (closeMark_key j ids) k

theorem markedAt_oneKey {u : State} (h : u.OneKey) (j : Job) (ids : List Nat) (n : Nat) : (u.markedAt j ids n).OneKey := by
  show (u.entries.map (closeMark j ids)).Pairwise _
  rw [List.pairwise_map]
  exact h.imp fun h' => by simpa only [closeMark_key] using h'

/-- The job's record with the counts that marking these ids raises. -/
def Job.counted (j : Job) (pinned lacking : Nat) : Job :=
  { j with skipped := (satSucc 32)^[pinned] j.skipped, readingsDropped := (satSucc 65535)^[lacking] j.readingsDropped }

theorem markedAt_eq (u : State) (j : Job) (ids : List Nat) (n : Nat) :
    u.markedAt j ids n = { u.withJob (j.counted (u.pinnedWeak j ids) n) with entries := u.entries.map (closeMark j ids) } := rfl

theorem markedAt_set (u : State) (j : Job) (ids : List Nat) (n : Nat) :
    u.markedAt j ids n = (u.withJob (j.counted (u.pinnedWeak j ids) n)).setEntries (u.entries.map (closeMark j ids)) := rfl

theorem markedAt_nil {u : State} (hs : u.OneId) {j : Job} (hj : u.job j.id = some j) : u.markedAt j [] 0 = u := by
  have he : u.entries.map (closeMark j []) = u.entries := by
    rw [List.map_congr_left (g := id)]
    · simp
    · intro x _; simp [closeMark]
  rw [markedAt_eq, he]
  show ({ u.withJob j with entries := u.entries } : State) = u
  rw [withJob_self hs hj]

/-- One id marked by the close (R79). -/
theorem markEntry_eq {u : State} (hs : u.OneId) (hk : u.OneKey) {j0 j : Job} (hj : u.job j.id = some j) (hid : j0.id = j.id) (sector : Nat)
    (hkey : j0.keyOf sector = j.keyOf sector) (lack : Bool) (hl : lack = true → u.asksAt j sector = true) :
    u.markEntry j0 sector lack = u.markedAt j [sector] lack.toNat := by
  have hmap : ∀ (e : Entry) (g : Entry → Entry), u.entry (j.keyOf sector) = some e → g e = e.markedAtClose →
      (u.entries.map fun x => if x.key == j.keyOf sector then g x else x) = u.entries.map (closeMark j [sector]) := by
    intro e g he hg
    apply List.map_congr_left
    intro x hx
    by_cases hxk : x.key = j.keyOf sector
    · have : x = e := unique_key hk hx (entry_mem he).1 (hxk.trans (entry_mem he).2.symm)
      subst this
      simp [hxk, closeMark, Job.keyOf, hg]
    · have : ¬(x.key.OfBand j ∧ x.key.sector = sector) := fun h => hxk (by
        obtain ⟨⟨h1, h2, h3⟩, h4⟩ := h
        cases hx' : x.key
        simp_all [Job.keyOf])
      simp [hxk, closeMark, this]
  have hself : ∀ e, u.entry (j.keyOf sector) = some e → e.markedAtClose = e →
      u.entries.map (closeMark j [sector]) = u.entries := by
    intro e he hm
    rw [← hmap e id he hm.symm]
    conv_rhs => rw [← List.map_id u.entries]
    apply List.map_congr_left
    intro x _
    split <;> rfl
  have hnone : u.entry (j.keyOf sector) = none → u.entries.map (closeMark j [sector]) = u.entries := by
    intro he
    conv_rhs => rw [← List.map_id u.entries]
    apply List.map_congr_left
    intro x hx
    have hne := List.find?_eq_none.1 he x hx
    have : ¬(x.key.OfBand j ∧ x.key.sector = sector) := fun h => hne (by
      obtain ⟨⟨h1, h2, h3⟩, h4⟩ := h
      cases hx' : x.key
      simp_all [Job.keyOf])
    simp [closeMark, this]
  have hj0 : u.withJob j = u := withJob_self hs hj
  have hkept : ∀ (E : List Entry) (n : Nat) (b : Bool), n = 0 → b = false →
      ({ u with entries := E } : State) = { u.withJob (j.counted n b.toNat) with entries := E } := by
    intro E n b hn hb
    have hc : j.counted n b.toNat = j := by subst hn hb; rfl
    rw [hc, hj0]
  have hpin : ∀ e, u.entry (j.keyOf sector) = some e → u.pinnedWeak j [sector] = (e.state == .weak && e.pinned).toNat := by
    intro e he
    unfold State.pinnedWeak
    simp only [List.countP_cons, List.countP_nil, he, Option.any_some]
    cases (e.state == .weak && e.pinned) <;> rfl
  rw [markedAt_eq]
  unfold State.markEntry
  simp only [hkey, hid]
  cases he : u.entry (j.keyOf sector) with
  | none =>
    have hl' : lack = false := by
      cases lack
      · rfl
      · have := hl rfl; simp [State.asksAt, he] at this
    have hp : u.pinnedWeak j [sector] = 0 := by simp [State.pinnedWeak, he]
    simp only [hnone he, hp, hl']
    show u = { u.withJob j with entries := u.entries }
    rw [hj0]
  | some e =>
    simp only
    have hlack : lack = true → e.state = .weak ∧ e.pinned = false := fun h => by
      have := hl h
      simp [State.asksAt, he] at this
      exact ⟨this.1.1, this.2⟩
    have hfix : e.markedAtClose = e → (e.state == .weak && e.pinned) = false → lack = false →
        u = { u.withJob (j.counted (u.pinnedWeak j [sector]) lack.toNat) with entries := u.entries.map (closeMark j [sector]) } := by
      intro hm hp h
      rw [hself e he hm, hpin e he, hp, h]
      show u = { u.withJob j with entries := u.entries }
      rw [hj0]
    have hl0 : e.state ≠ .weak → lack = false := fun h => by
      cases lack
      · rfl
      · exact absurd (hlack rfl).1 h
    cases hst : e.state with
    | weak =>
      cases hp : e.pinned with
      | true =>
        have hl' : lack = false := by
          cases lack
          · rfl
          · have := (hlack rfl).2; simp [hp] at this
        have hm : e.markedAtClose = e := by simp [Entry.markedAtClose, hst, hp]
        simp only [if_true]
        rw [hself e he hm, hpin e he, hst, hp, hl']
        exact updateJob_eq_withJob (k := j.counted 1 0) hs hj rfl rfl
      | false =>
        have hm : e.markedAtClose = e.become .exhausted none := by simp [Entry.markedAtClose, hst, hp, Entry.become]
        have hup : u.updateEntry (j.keyOf sector) (fun e => e.become .exhausted none)
            = { u with entries := u.entries.map (closeMark j [sector]) } := by
          unfold State.updateEntry State.setEntries
          rw [hmap e (fun e => e.become .exhausted none) he hm.symm]
        simp only [Bool.false_eq_true, if_false, hup]
        rw [hpin e he, hst, hp]
        cases lack with
        | false => exact hkept _ _ _ (by decide) rfl
        | true =>
          have hs' : State.OneId { u with entries := u.entries.map (closeMark j [sector]) } := hs
          rw [if_pos rfl]
          rw [updateJob_eq_withJob hs' (j := j) hj rfl rfl]
          rfl
    | expected =>
      have hm : e.markedAtClose = e.become .missing none := by simp [Entry.markedAtClose, hst, Entry.become]
      have hup : u.updateEntry (j.keyOf sector) (fun e => e.become .missing none) = { u with entries := u.entries.map (closeMark j [sector]) } := by
        unfold State.updateEntry State.setEntries
        rw [hmap e (fun e => e.become .missing none) he hm.symm]
      simp only [hup]
      exact hkept _ _ _ (by rw [hpin e he, hst]; simp) (hl0 (by simp [hst]))
    | headerOnly =>
      have hm : e.markedAtClose = e.become .missing none := by simp [Entry.markedAtClose, hst, Entry.become]
      have hup : u.updateEntry (j.keyOf sector) (fun e => e.become .missing none) = { u with entries := u.entries.map (closeMark j [sector]) } := by
        unfold State.updateEntry State.setEntries
        rw [hmap e (fun e => e.become .missing none) he hm.symm]
      simp only [hup]
      exact hkept _ _ _ (by rw [hpin e he, hst]; simp) (hl0 (by simp [hst]))
    | tentative | settled | disputed | synthesized | amended | missing | exhausted =>
      exact hfix (by simp [Entry.markedAtClose, hst]) (by simp [hst]) (hl0 (by simp [hst]))

theorem counted_counted (j : Job) (p a p' b : Nat) : (j.counted p a).counted p' b = j.counted (p' + p) (b + a) := by
  unfold Job.counted
  simp only [Function.iterate_add_apply]

theorem closedDone_counted (j : Job) (p a p' b : Nat) : (j.counted p a).closedDone p' b = j.closedDone (p' + p) (b + a) := by
  unfold Job.closedDone Job.counted Job.breakHold
  by_cases h : 0 < j.holdRemaining <;> simp only [h, if_true, if_false, Function.iterate_add_apply]

theorem entry_key {s : State} {k : Key} {e : Entry} (h : s.entry k = some e) : e.key = k := (entry_mem h).2

theorem markedAt_pinnedWeak (u : State) (j : Job) (ids rest : List Nat) (n : Nat) :
    (u.markedAt j ids n).pinnedWeak j rest = u.pinnedWeak j rest := by
  unfold State.pinnedWeak
  apply List.countP_congr
  intro i _
  rw [markedAt_entry]
  cases u.entry (j.keyOf i) with
  | none => simp
  | some e =>
    simp only [Option.map_some, Option.any_some, closeMark]
    split
    · rw [markedAtClose_weak]
    · rfl

theorem markedAt_asksAt (u : State) (j : Job) (ids : List Nat) (n i : Nat) :
    (u.markedAt j ids n).asksAt j i = (u.asksAt j i && decide (i ∉ ids)) := by
  unfold State.asksAt
  rw [markedAt_entry]
  cases he : u.entry (j.keyOf i) with
  | none => simp
  | some e =>
    have hk := entry_key he
    simp only [Option.map_some, Option.any_some]
    by_cases hi : i ∈ ids
    · rw [closeMark_in ⟨by rw [hk]; exact ⟨rfl, rfl, rfl⟩, by rw [hk]; exact hi⟩]
      cases hs : e.state <;> cases hp : e.pinned <;> simp [Entry.markedAtClose, hs, hp, hi]
    · rw [closeMark_out (by rw [hk]; exact fun h => hi h.2)]
      simp [hi]

theorem markedAt_oneId {u : State} (h : u.OneId) (j : Job) (ids : List Nat) (n : Nat) : (u.markedAt j ids n).OneId :=
  withJob_oneId (s := u) h (j.counted (u.pinnedWeak j ids) n)

theorem markedAt_job {u : State} {j : Job} (hj : u.job j.id = some j) (ids : List Nat) (n : Nat) :
    (u.markedAt j ids n).job j.id = some (j.counted (u.pinnedWeak j ids) n) :=
  job_withJob (s := u) (k := j.counted (u.pinnedWeak j ids) n) hj rfl

/-- Marking one id and then others is marking them all. -/
theorem markedAt_cons (u : State) (j : Job) (i : Nat) (rest : List Nat) (a b : Nat) :
    (u.markedAt j [i] a).markedAt (j.counted (u.pinnedWeak j [i]) a) rest b = u.markedAt j (i :: rest) (b + a) := by
  have hp : (u.markedAt j [i] a).pinnedWeak (j.counted (u.pinnedWeak j [i]) a) rest = u.pinnedWeak j rest :=
    markedAt_pinnedWeak u j [i] rest a
  have hsum : u.pinnedWeak j rest + u.pinnedWeak j [i] = u.pinnedWeak j (i :: rest) := by
    unfold State.pinnedWeak
    simp [List.countP_cons]
  have hm : (u.entries.map (closeMark j [i])).map (closeMark (j.counted (u.pinnedWeak j [i]) a) rest) = u.entries.map (closeMark j (i :: rest)) := by
    rw [List.map_map]
    apply List.map_congr_left
    intro x _
    rw [Function.comp_apply, closeMark_congr (j := j) (k := j.counted (u.pinnedWeak j [i]) a) ⟨rfl, rfl, rfl⟩ rest, closeMark_cons]
  have hw := withJob_withJob u (j := j.counted (u.pinnedWeak j [i]) a) (k := j.counted (u.pinnedWeak j (i :: rest)) (b + a)) rfl
  rw [markedAt_set (u.markedAt j [i] a), hp, counted_counted, hsum, markedAt_entries, hm, markedAt_set, markedAt_set, ← hw]
  rfl

/-! ## A close -/

/-- What a close reads of its job: its id, its band and its attributes. -/
structure Job.ClosesAs (j0 j : Job) : Prop where
  id : j0.id = j.id
  key : ∀ i, j0.keyOf i = j.keyOf i
  attributes : j0.attributes = j.attributes

theorem Job.ClosesAs.refl (j : Job) : j.ClosesAs j := ⟨rfl, fun _ => rfl, rfl⟩

theorem Job.ClosesAs.counted {j0 j : Job} (h : j0.ClosesAs j) (p a : Nat) : j0.ClosesAs (j.counted p a) := ⟨h.id, h.key, h.attributes⟩

/-- The record with the close's own fields at rest. -/
def Job.closeOver (j : Job) : Job := { j with closeHand := none, closeLeft := [] }

/-- A close with no id left: the job leaves DONE (R80). -/
theorem closeDone_spec {u : State} (hs : u.OneId) {j : Job} (hj : u.job j.id = some j) (he : j.ending = none) {id : Nat} (hid : id = j.id) :
    u.Leaves (u.closeDone id) (j.closedDone 0 0) .done := by
  subst hid
  have hcl : (j.closedDone 0 0).id = j.id := by unfold Job.closedDone Job.breakHold; split <;> rfl
  have hk : (j.decide .done).closeOver = (j.closedDone 0 0).closeOver := by
    unfold Job.decide Job.closedDone
    rw [he]
    unfold Job.breakHold
    by_cases h : 0 < j.holdRemaining
    · simp only [if_pos h]; rfl
    · simp only [if_neg h]; rfl
  have hu : u.closeDone j.id = (u.withJob (j.closedDone 0 0).closeOver).finishJob j.id := by
    unfold State.closeDone
    rw [← updateJob_eq_withJob hs hj (f := fun j => (j.decide .done).closeOver) hk hcl]
    rfl
  have hjob : (u.withJob (j.closedDone 0 0).closeOver).job (j.closedDone 0 0).closeOver.id = some (j.closedDone 0 0).closeOver := by
    rw [show (j.closedDone 0 0).closeOver.id = j.id from hcl]
    exact job_withJob hj hcl
  have hl := finishJob_spec (withJob_oneId hs _) hjob (e := .done) rfl
  rw [show (j.closedDone 0 0).closeOver.id = j.id from hcl, ← hu] at hl
  unfold State.Leaves at hl ⊢
  rw [left_withJob _ _ rfl] at hl
  exact Continues_congr (j := j.closedDone 0 0) (k := (j.closedDone 0 0).closeOver) rfl rfl rfl hl

/-- Whether the close asks for a synthesis at an id, as the model tests it. -/
theorem wantsSynthesis_eq (u : State) (j : Job) (i : Nat) : (u.entry (j.keyOf i)).any Entry.wantsSynthesis = u.asksAt j i := rfl

/-- An id the close only marks. -/
theorem closeFrom_mark {u : State} (hs : u.OneId) (hk : u.OneKey) {j0 j : Job} (hj : u.job j.id = some j) (h0 : j0.ClosesAs j) {i : Nat}
    (rest : List Nat) (hi : j.attributes.autoSynthesize = false ∨ u.asksAt j i = false) :
    State.closeFrom j0 (i :: rest) u = State.closeFrom j0 rest (u.markedAt j [i] 0) := by
  have ht : (j0.attributes.autoSynthesize && (u.entry (j0.keyOf i)).any Entry.wantsSynthesis) = false := by
    rw [h0.attributes, h0.key, wantsSynthesis_eq]
    rcases hi with h | h <;> simp [h]
  rw [State.closeFrom]
  simp only [ht, Bool.false_eq_true, if_false]
  rw [markEntry_eq hs hk hj h0.id i (h0.key i) false (fun h => by simp at h)]
  rfl

/-- Where a close asks for no synthesis it marks every id and the job leaves DONE (R79, R80). -/
theorem closeFrom_unasked (ids : List Nat) : ∀ {u : State} (_ : u.OneId) (_ : u.OneKey) {j0 j : Job} (_ : u.job j.id = some j) (_ : j0.ClosesAs j)
    (_ : j.ending = none) (_ : j.attributes.autoSynthesize = false ∨ ∀ i ∈ ids, u.asksAt j i = false),
    (u.markedAt j ids 0).Leaves (State.closeFrom j0 ids u) (j.closedDone (u.pinnedWeak j ids) 0) .done := by
  induction ids with
  | nil =>
    intro u hs hk j0 j hj h0 he _
    rw [markedAt_nil hs hj]
    exact closeDone_spec hs hj he h0.id
  | cons i rest ih =>
    intro u hs hk j0 j hj h0 he ha
    rw [closeFrom_mark hs hk hj h0 rest (ha.imp id fun h => h i (List.mem_cons_self ..))]
    have h := ih (markedAt_oneId hs j [i] 0) (markedAt_oneKey hk j [i] 0) (markedAt_job hj [i] 0) (h0.counted _ _) he
      (ha.imp id fun h k hr => by
        show (u.markedAt j [i] 0).asksAt j k = false
        rw [markedAt_asksAt, h k (List.mem_cons_of_mem _ hr), Bool.false_and])
    rw [markedAt_cons, closedDone_counted] at h
    have hsum : (u.markedAt j [i] 0).pinnedWeak (j.counted (u.pinnedWeak j [i]) 0) rest + u.pinnedWeak j [i] = u.pinnedWeak j (i :: rest) := by
      rw [show (u.markedAt j [i] 0).pinnedWeak (j.counted (u.pinnedWeak j [i]) 0) rest = u.pinnedWeak j rest from markedAt_pinnedWeak u j [i] rest 0]
      simp [State.pinnedWeak, List.countP_cons]
    rw [hsum] at h
    exact h

theorem asksAt_entry {u : State} {j : Job} {i : Nat} (h : u.asksAt j i = true) :
    ∃ e, u.entry (j.keyOf i) = some e ∧ e.state = .weak ∧ 3 ≤ e.candidates.length ∧ e.pinned = false := by
  unfold State.asksAt at h
  cases he : u.entry (j.keyOf i) with
  | none => simp [he] at h
  | some e =>
    simp [he] at h
    exact ⟨e, rfl, h.1.1, h.1.2, h.2⟩

/-- A close's request at an entry it asks for passes every test of R144 but the one of the pool. -/
theorem judgeStart_close {u : State} {key : Key} {e : Entry} (id : Nat) (he : u.entry key = some e) (hw : e.state = .weak) (hp : e.pinned = false)
    (hr : 3 ≤ e.readCount) :
    u.judgeStart ⟨key, .close id⟩
      = match u.claimFrame with
        | none => .inr (.noFrame, [])
        | some (f, s) =>
          .inl (s.setSynth { s.synth with inHand := some ⟨key, .close id⟩, workFrame := some f,
                                          inputs := some (s.synthInputs (s.kindOf key.handle) e.size e.candidates 0),
                                          kind := s.kindOf key.handle, contested := 0, ties := 0 }) := by
  unfold State.judgeStart
  have hn : ¬e.readCount < Config.synthesisInputs := by
    show ¬e.readCount < 3
    omega
  simp only [he, SynthSource.isCommand, Bool.false_eq_true, if_false, hp, hw, beq_self_eq_true, Bool.true_or, Bool.not_true, hn]
  -- Needed where this file is built as a module of its own; in the one text the line above closes the goal.
  all_goals cases u.claimFrame <;> rfl

/-- The inputs of a vote come from the candidates and from buffer memory. -/
theorem synthInputs_congr {s t : State} (h : s.memory = t.memory) (kind : PortKind) (size : Nat) (cs : List Candidate) :
    s.synthInputs kind size cs = t.synthInputs kind size cs := by
  induction cs with
  | nil => funext i; rfl
  | cons x xs ih =>
    funext i
    unfold State.synthInputs State.frameData
    simp only [h, ih]

theorem synthArrive_idle {u : State} (r : SynthRequest) (hi : u.synth.inputs = none) (hw : u.synth.wait = []) :
    u.synthArrive r = u.judgeStart r := by
  unfold State.synthArrive
  rw [if_pos (by simp [Synth.idle, hi, hw])]

theorem synthArrive_busy {u : State} (r : SynthRequest) (h : u.synth.inputs ≠ none ∨ u.synth.wait ≠ []) :
    u.synthArrive r = .inl (u.setSynth { u.synth with wait := u.synth.wait ++ [r] }) := by
  unfold State.synthArrive
  rw [if_neg]
  rcases h with h | h
  · simp [Synth.idle, h]
  · simp [h]

/-- An id whose synthesis finds the pool empty. -/
theorem closeFrom_lack {u : State} (hs : u.OneId) (hk : u.OneKey) {j0 j : Job} (hj : u.job j.id = some j) (h0 : j0.ClosesAs j) {i : Nat}
    (rest : List Nat) (hauto : j.attributes.autoSynthesize = true) (hi : u.synth.inputs = none) (hw : u.synth.wait = []) (hp : u.pool = [])
    (ha : u.asksAt j i = true) (hr : ∀ e, u.entry (j.keyOf i) = some e → 3 ≤ e.readCount) :
    State.closeFrom j0 (i :: rest) u = State.closeFrom j0 rest (u.markedAt j [i] 1) := by
  obtain ⟨e, he, hweak, _, hpin⟩ := asksAt_entry ha
  have ht : (j0.attributes.autoSynthesize && (u.entry (j0.keyOf i)).any Entry.wantsSynthesis) = true := by
    rw [h0.attributes, h0.key, wantsSynthesis_eq, hauto, ha]; rfl
  have hn : u.synthArrive ⟨j0.keyOf i, .close j0.id⟩ = .inr (.noFrame, []) := by
    rw [synthArrive_idle _ hi hw, h0.key, judgeStart_close j0.id he hweak hpin (hr e he)]
    simp [State.claimFrame, hp]
  rw [State.closeFrom]
  simp only [ht, if_true, hn]
  rw [show (RefusalCode.noFrame == RefusalCode.noFrame) = true from rfl, markEntry_eq hs hk hj h0.id i (h0.key i) true (fun _ => ha)]
  rfl

theorem markedAt_fields (u : State) (j : Job) (ids : List Nat) (n : Nat) :
    (u.markedAt j ids n).synth = u.synth ∧ (u.markedAt j ids n).pool = u.pool ∧ (u.markedAt j ids n).memory = u.memory
      ∧ (u.markedAt j ids n).volumes = u.volumes := ⟨rfl, rfl, rfl, rfl⟩

theorem pinnedWeak_cons (u : State) (j : Job) (i a : Nat) (rest : List Nat) :
    (u.markedAt j [i] a).pinnedWeak (j.counted (u.pinnedWeak j [i]) a) rest + u.pinnedWeak j [i] = u.pinnedWeak j (i :: rest) := by
  rw [show (u.markedAt j [i] a).pinnedWeak (j.counted (u.pinnedWeak j [i]) a) rest = u.pinnedWeak j rest from markedAt_pinnedWeak u j [i] rest a]
  simp [State.pinnedWeak, List.countP_cons]

theorem markedAt_entry_other {u : State} {j : Job} {i k : Nat} (n : Nat) (h : k ≠ i) : (u.markedAt j [i] n).entry (j.keyOf k) = u.entry (j.keyOf k) := by
  rw [markedAt_entry]
  cases he : u.entry (j.keyOf k) with
  | none => rfl
  | some e =>
    rw [Option.map_some, closeMark_out (by rw [entry_key he]; exact fun hh => h (List.mem_singleton.1 hh.2))]

/-- Where the pool is empty at each id the close asks at, it marks every id and the job leaves DONE (R79, R152). -/
theorem closeFrom_lacking (ids : List Nat) : ∀ {u : State} (_ : u.OneId) (_ : u.OneKey) {j0 j : Job} (_ : u.job j.id = some j) (_ : j0.ClosesAs j)
    (_ : j.ending = none) (_ : j.attributes.autoSynthesize = true) (_ : u.synth.inputs = none) (_ : u.synth.wait = []) (_ : u.pool = [])
    (_ : ids.Nodup) (_ : ∀ i ∈ ids, ∀ e, u.entry (j.keyOf i) = some e → u.asksAt j i = true → 3 ≤ e.readCount),
    (u.markedAt j ids (ids.countP (u.asksAt j))).Leaves (State.closeFrom j0 ids u)
      (j.closedDone (u.pinnedWeak j ids) (ids.countP (u.asksAt j))) .done := by
  induction ids with
  | nil =>
    intro u hs hk j0 j hj h0 he _ _ _ _ _ _
    show (u.markedAt j [] 0).Leaves _ _ _
    rw [markedAt_nil hs hj]
    exact closeDone_spec hs hj he h0.id
  | cons i rest ih =>
    intro u hs hk j0 j hj h0 he hauto hi hw hp hn hr
    have hstep : ∀ a, (u.asksAt j i).toNat = a → State.closeFrom j0 (i :: rest) u = State.closeFrom j0 rest (u.markedAt j [i] a) := by
      rintro a rfl
      cases ha : u.asksAt j i with
      | false => exact closeFrom_mark hs hk hj h0 rest (.inr ha)
      | true => exact closeFrom_lack hs hk hj h0 rest hauto hi hw hp ha (fun e hE => hr i (List.mem_cons_self ..) e hE ha)
    obtain ⟨a, ha⟩ : ∃ a, (u.asksAt j i).toNat = a := ⟨_, rfl⟩
    have hni : ∀ k ∈ rest, k ≠ i := fun k hk' e => (List.nodup_cons.1 hn).1 (e ▸ hk')
    have hcount : rest.countP ((u.markedAt j [i] a).asksAt (j.counted (u.pinnedWeak j [i]) a)) = rest.countP (u.asksAt j) := by
      apply List.countP_congr
      intro k hk'
      rw [show (u.markedAt j [i] a).asksAt (j.counted (u.pinnedWeak j [i]) a) k = (u.markedAt j [i] a).asksAt j k from rfl, markedAt_asksAt]
      simp [hni k hk']
    have hsum : rest.countP (u.asksAt j) + a = (i :: rest).countP (u.asksAt j) := by
      rw [List.countP_cons, ← ha]
      cases u.asksAt j i <;> simp
    rw [hstep a ha]
    have h := ih (markedAt_oneId hs j [i] a) (markedAt_oneKey hk j [i] a) (markedAt_job hj [i] a) (h0.counted _ _) he hauto hi hw hp
      (List.nodup_cons.1 hn).2 (fun k hk' e hE hA => by
        rw [show (j.counted (u.pinnedWeak j [i]) a).keyOf k = j.keyOf k from rfl, markedAt_entry_other a (hni k hk')] at hE
        refine hr k (List.mem_cons_of_mem _ hk') e hE ?_
        rw [show (u.markedAt j [i] a).asksAt (j.counted (u.pinnedWeak j [i]) a) k = (u.markedAt j [i] a).asksAt j k from rfl, markedAt_asksAt] at hA
        simpa [hni k hk'] using hA)
    rw [hcount, markedAt_cons, closedDone_counted, hsum, pinnedWeak_cons] at h
    exact h

/-- The first id a close asks at: the ids before it are marked, and its request starts or waits (R78, R143). -/
theorem closeFrom_asks (before : List Nat) : ∀ {u : State} (_ : u.OneId) (_ : u.OneKey) {j0 j : Job} (_ : u.job j.id = some j) (_ : j0.ClosesAs j)
    (sector : Nat) (after : List Nat) (e : Entry) (m : Medium) (_ : j.attributes.autoSynthesize = true) (_ : ∀ i ∈ before, u.asksAt j i = false)
    (_ : u.asksAt j sector = true) (_ : u.entry (j.keyOf sector) = some e) (_ : 3 ≤ e.readCount) (_ : u.medium j.handle = some m) (v : State)
    (_ : v = (u.markedAt j before 0).withJob
        { j with skipped := (satSucc 32)^[u.pinnedWeak j before] j.skipped, closeHand := some sector, closeLeft := after }),
    (∀ frame rest, u.synth.inputs = none → u.synth.wait = [] → u.pool = frame :: rest →
      State.closeFrom j0 (before ++ sector :: after) u = { v with
            pool := rest
            synth := { u.synth with
              inHand := some ⟨j.keyOf sector, .close j.id⟩, workFrame := some frame
              inputs := some (u.synthInputs m.kind e.size e.candidates 0), kind := m.kind, contested := 0, ties := 0 } })
    ∧ (u.synth.inputs ≠ none ∨ u.synth.wait ≠ [] →
        State.closeFrom j0 (before ++ sector :: after) u
          = { v with synth := { u.synth with wait := u.synth.wait ++ [⟨j.keyOf sector, .close j.id⟩] } }) := by
  induction before with
  | nil =>
    intro u hs hk j0 j hj h0 sector after e m hauto _ ha he hr hm v hv
    rw [markedAt_nil hs hj] at hv
    subst hv
    obtain ⟨e', he', hweak, _, hpin⟩ := asksAt_entry ha
    obtain rfl : e = e' := by rw [he] at he'; exact Option.some.inj he'
    have ht : (j0.attributes.autoSynthesize && (u.entry (j0.keyOf sector)).any Entry.wantsSynthesis) = true := by
      rw [h0.attributes, h0.key, wantsSynthesis_eq, hauto, ha]; rfl
    have hgo : ∀ s', u.synthArrive ⟨j0.keyOf sector, .close j0.id⟩ = .inl s' → s'.jobs = u.jobs →
        State.closeFrom j0 (sector :: after) u = s'.withJob { j with closeHand := some sector, closeLeft := after } := by
      intro s' hs' hjobs
      have hs1 : s'.OneId := by unfold State.OneId; rw [hjobs]; exact hs
      have hj1 : s'.job j.id = some j := by unfold State.job; rw [hjobs]; exact hj
      rw [State.closeFrom]
      simp only [ht, if_true, hs']
      rw [h0.id]
      exact updateJob_eq_withJob (k := { j with closeHand := some sector, closeLeft := after }) hs1 hj1 rfl rfl
    have hkind : u.kindOf j.handle = m.kind := by unfold State.kindOf; rw [hm]
    refine ⟨fun frame rest hi hw hp => ?_, fun hbusy => ?_⟩
    · rw [List.nil_append, hgo (({ u with pool := rest } : State).setSynth { u.synth with
              inHand := some ⟨j.keyOf sector, .close j.id⟩, workFrame := some frame
              inputs := some (u.synthInputs m.kind e.size e.candidates 0), kind := m.kind, contested := 0, ties := 0 }) ?_ rfl]
      · rfl
      · rw [synthArrive_idle _ hi hw, h0.key, h0.id, judgeStart_close j.id he hweak hpin hr]
        have hc : u.claimFrame = some (frame, u.setPool rest) := by simp [State.claimFrame, hp]
        rw [hc]
        simp only [show (u.setPool rest).kindOf (j.keyOf sector).handle = m.kind from hkind, synthInputs_congr (show (u.setPool rest).memory = u.memory from rfl)]
        rfl
    · rw [List.nil_append, hgo _ (synthArrive_busy _ hbusy) rfl, h0.key, h0.id]
      rfl
  | cons i rest ih =>
    intro u hs hk j0 j hj h0 sector after e m hauto hb ha he hr hm v hv
    have hi : u.asksAt j i = false := hb i (List.mem_cons_self ..)
    have hne : sector ≠ i := fun h => by rw [h, hi] at ha; simp at ha
    rw [List.cons_append, closeFrom_mark hs hk hj h0 (rest ++ sector :: after) (.inr hi)]
    have h := ih (markedAt_oneId hs j [i] 0) (markedAt_oneKey hk j [i] 0) (markedAt_job hj [i] 0) (h0.counted _ _) sector after e m hauto
      (fun k hk' => by
        rw [show (u.markedAt j [i] 0).asksAt (j.counted (u.pinnedWeak j [i]) 0) k = (u.markedAt j [i] 0).asksAt j k from rfl, markedAt_asksAt,
          hb k (List.mem_cons_of_mem _ hk'), Bool.false_and])
      (by
        rw [show (u.markedAt j [i] 0).asksAt (j.counted (u.pinnedWeak j [i]) 0) sector = (u.markedAt j [i] 0).asksAt j sector from rfl,
          markedAt_asksAt, ha]
        simp [hne])
      (by rw [show (j.counted (u.pinnedWeak j [i]) 0).keyOf sector = j.keyOf sector from rfl, markedAt_entry_other 0 hne]; exact he)
      hr hm v
      (by
        rw [hv, markedAt_cons]
        congr 2
        rw [← pinnedWeak_cons u j i 0 rest, Function.iterate_add_apply]
        rfl)
    rw [synthInputs_congr (show (u.markedAt j [i] 0).memory = u.memory from rfl)] at h
    exact h

/-- What a close does from the ids it has not reached (R78 to R80, R152). -/
theorem closeFrom_spec {u : State} (hs : u.OneId) (hk : u.OneKey) {j0 j : Job} (hj : u.job j.id = some j) (h0 : j0.ClosesAs j) (ids : List Nat) :
    u.CloseRuns (State.closeFrom j0 ids u) j ids where
  unasked he ha := closeFrom_unasked ids hs hk hj h0 he ha
  lacking he hauto hi hw hp hn hr := closeFrom_lacking ids hs hk hj h0 he hauto hi hw hp hn hr
  asks before sector after e m v hids hauto hb ha he hr hm hv := by
    subst hids
    exact closeFrom_asks before hs hk hj h0 sector after e m hauto hb ha he hr hm v hv

theorem idsOf_eq {u : State} {j : Job} {m : Medium} (hm : u.medium j.handle = some m) :
    u.idsOf j = (List.range m.geometry.sectors).map (· + m.geometry.firstId) := by
  unfold State.idsOf
  rw [hm]
  rfl

theorem setChannel_oneKey {s : State} (h : s.OneKey) (c : ChannelName) (v : Channel) : (s.setChannel c v).OneKey := by cases c <;> exact h

/-- What a grant to other jobs keeps: the record of job `id`, the ids of the table, and the entries. -/
structure State.Keeps (s t : State) (id : Nat) : Prop where
  job : t.job id = s.job id
  ids : t.jobs.map Job.id = s.jobs.map Job.id
  entries : t.entries = s.entries

theorem State.Keeps.refl (s : State) (id : Nat) : s.Keeps s id := ⟨rfl, rfl, rfl⟩
theorem State.Keeps.trans {s t u : State} {id : Nat} (h : s.Keeps t id) (k : t.Keeps u id) : s.Keeps u id :=
  ⟨k.job.trans h.job, k.ids.trans h.ids, k.entries.trans h.entries⟩

theorem State.Keeps.oneId {s t : State} {id : Nat} (h : s.Keeps t id) (hs : s.OneId) : t.OneId := by
  have : (s.jobs.map Job.id).Pairwise (· ≠ ·) := List.pairwise_map.2 hs
  rw [← h.ids] at this
  exact List.pairwise_map.1 this

theorem State.Keeps.oneKey {s t : State} {id : Nat} (h : s.Keeps t id) (hs : s.OneKey) : t.OneKey := by
  unfold State.OneKey
  rw [h.entries]
  exact hs

/-- A job's record changes and its id stays. -/
theorem updateJob_keeps (s : State) {k id : Nat} (hne : k ≠ id) {f : Job → Job} (hf : ∀ j, (f j).id = j.id) : s.Keeps (s.updateJob k f) id := by
  refine ⟨?_, ?_, rfl⟩
  · show (s.jobs.map _).find? _ = s.jobs.find? _
    rw [List.find?_map]
    have : (fun x : Job => x.id == id) ∘ (fun j => if j.id == k then f j else j) = fun x => x.id == id := by
      funext x
      simp only [Function.comp]
      split <;> simp [hf]
    rw [this]
    cases hj : s.jobs.find? (fun x => x.id == id) with
    | none => rfl
    | some x =>
      have hx : x.id = id := by simpa using List.find?_some hj
      have : ¬x.id = k := fun h => hne (h.symm.trans hx)
      simp [this]
  · show (s.jobs.map _).map _ = _
    rw [List.map_map]
    apply List.map_congr_left
    intro x _
    simp only [Function.comp]
    split <;> simp [hf]

theorem setChannel_keeps (s : State) (c : ChannelName) (v : Channel) (id : Nat) : s.Keeps (s.setChannel c v) id := by
  cases c <;> exact ⟨rfl, rfl, rfl⟩

theorem setPorts_keeps (s : State) (v : Four Port) (id : Nat) : s.Keeps (s.setPorts v) id := ⟨rfl, rfl, rfl⟩

theorem enterRetensionWait_keeps (s : State) {j : Job} {id : Nat} (hne : j.id ≠ id) : s.Keeps (s.enterRetensionWait j) id := by
  have h := updateJob_keeps s hne (f := fun j => { j with state := .retensionWait }) (fun _ => rfl)
  unfold State.enterRetensionWait
  dsimp only
  split
  · exact h.trans (setPorts_keeps _ _ _)
  · exact h

/-- A stream request touches no other job's record. -/
theorem requestStream_keeps (s : State) (c : ChannelName) {j : Job} {id : Nat} (hne : j.id ≠ id) : s.Keeps (s.requestStream c j).1 id := by
  unfold State.requestStream
  split
  · exact .refl ..
  · have hb := updateJob_keeps s hne (f := Job.beginPass) (fun _ => rfl)
    dsimp only
    split
    · exact hb
    · split
      · exact hb.trans ((updateJob_keeps _ hne (fun j => breakHold_id j)).trans (enterRetensionWait_keeps _ hne))
      · exact hb.trans ((updateJob_keeps _ hne (f := fun j => { j with state := .streaming }) (fun _ => rfl)).trans
          ((setPorts_keeps _ _ _).trans (setChannel_keeps _ _ _ _)))

theorem requestStream_waits (s : State) (c : ChannelName) (j : Job) : (s.requestStream c j).1.waits = s.waits := by
  unfold State.requestStream State.enterRetensionWait
  split
  · rfl
  · dsimp only
    split
    · rfl
    · split
      · split <;> rfl
      · rw [updateChannel_eq, setChannel_waits]; rfl

/-- A grant to the waiting jobs touches no job that does not wait. -/
theorem grantWaiting_keeps (c : ChannelName) {id : Nat} : ∀ (n : Nat) (s : State), id ∉ s.waits → s.Keeps (s.grantWaiting c n) id
  | 0, s, _ => .refl ..
  | n + 1, s, h => by
    unfold State.grantWaiting
    split
    · exact .refl ..
    · rename_i k rest hw
      rw [hw] at h
      have h1 : s.Keeps (s.setWaits rest) id := ⟨rfl, rfl, rfl⟩
      have hrest : id ∉ rest := fun hm => h (List.mem_cons_of_mem _ hm)
      dsimp only
      split
      · exact h1.trans (grantWaiting_keeps c n _ hrest)
      · rename_i j hj
        have hne : j.id ≠ id := fun e => h (by rw [← e, (job_mem hj).2]; exact List.mem_cons_self ..)
        have h2 := h1.trans ((setChannel_keeps (s.setWaits rest) c (((s.setWaits rest).channel c).grant k j.drive) id).trans (requestStream_keeps _ c hne))
        split
        · refine (h2.trans (setChannel_keeps _ c _ id)).trans (grantWaiting_keeps c n _ ?_)
          rw [updateChannel_eq, setChannel_waits, requestStream_waits, setChannel_waits]
          exact hrest
        · exact h2

/-- A release touches no job that does not wait. -/
theorem release_keeps {u : State} {id : Nat} (c : ChannelName) (h : id ∉ u.waits) : u.Keeps (u.release c) id := by
  unfold State.release
  rw [updateChannel_eq]
  exact (setChannel_keeps u c _ id).trans (grantWaiting_keeps c _ _ (by rw [setChannel_waits]; exact h))

theorem setChannel_volumes (s : State) (c : ChannelName) (v : Channel) : (s.setChannel c v).volumes = s.volumes := by cases c <;> rfl

theorem requestStream_volumes (s : State) (c : ChannelName) (j : Job) : (s.requestStream c j).1.volumes = s.volumes := by
  unfold State.requestStream State.enterRetensionWait
  split
  · rfl
  · dsimp only
    split
    · rfl
    · split
      · split <;> rfl
      · rw [updateChannel_eq, setChannel_volumes]; rfl

/-- A grant to the waiting jobs touches no volume. -/
theorem grantWaiting_volumes (c : ChannelName) : ∀ (n : Nat) (s : State), (s.grantWaiting c n).volumes = s.volumes
  | 0, _ => rfl
  | n + 1, s => by
    unfold State.grantWaiting
    split
    · rfl
    · dsimp only
      split
      · exact grantWaiting_volumes c n _
      · split
        · rw [grantWaiting_volumes c n _, updateChannel_eq, setChannel_volumes, requestStream_volumes, updateChannel_eq, setChannel_volumes]; rfl
        · rw [requestStream_volumes, updateChannel_eq, setChannel_volumes]; rfl

theorem release_medium (s : State) (c : ChannelName) (h : Nat) : (s.release c).medium h = s.medium h := by
  have : (s.release c).volumes = s.volumes := by
    unfold State.release
    rw [grantWaiting_volumes, updateChannel_eq, setChannel_volumes]
  unfold State.medium State.volume
  rw [this]

/-- How a job enters its close (R72, R78, R97). -/
theorem enterClosing_spec {u : State} (hs : u.OneId) (hk : u.OneKey) {j : Job} {m : Medium} (hj : u.job j.id = some j)
    (hm : u.medium j.handle = some m) : u.Closes (u.enterClosing j) j m := by
  have hw : u.updateJob j.id (fun j => { j with state := .closing }) = u.withJob { j with state := .closing } :=
    updateJob_eq_withJob hs hj rfl rfl
  refine ⟨fun hc => ?_, fun c hc hr hwt => ?_⟩
  · have hu : u.enterClosing j = State.closeFrom j (u.idsOf j) (u.withJob { j with state := .closing }) := by
      unfold State.enterClosing
      simp only [hw, channelOf_withJob, hc]
      rfl
    rw [hu, idsOf_eq hm]
    exact closeFrom_spec (j0 := j) (j := { j with state := .closing }) (withJob_oneId hs _) hk (job_withJob hj rfl) ⟨rfl, fun _ => rfl, rfl⟩ _
  · have hsw : (u.withJob { j with state := .closing, holdRemaining := 0 }).OneId := withJob_oneId hs _
    have hkeep := release_keeps (u := u.withJob { j with state := .closing, holdRemaining := 0 }) (id := j.id) c hwt
    have hu : u.enterClosing j = State.closeFrom j (u.idsOf j) ((u.withJob { j with state := .closing, holdRemaining := 0 }).release c) := by
      unfold State.enterClosing
      simp only [hw, channelOf_withJob, hc]
      rw [updateJob_withJob u (j := { j with state := .closing }) (k := { j with state := .closing, holdRemaining := 0 }) rfl rfl rfl]
      congr 1
      unfold State.idsOf
      rw [release_medium, withJob_medium]
    refine ⟨(u.withJob { j with state := .closing, holdRemaining := 0 }).release c, release_released hsw (by cases c <;> exact hr), ?_⟩
    rw [hu, idsOf_eq hm]
    exact closeFrom_spec (j0 := j) (j := { j with state := .closing, holdRemaining := 0 }) (hkeep.oneId hsw)
      (hkeep.oneKey (s := u.withJob { j with state := .closing, holdRemaining := 0 }) hk) (hkeep.job.trans (job_withJob hj rfl))
      ⟨rfl, fun _ => rfl, rfl⟩ _

/-! ## The decision after a pass -/

theorem reseatRequest_eq {p : Port} {band : BandAddress} (h : p.kind = .cartridge ∨ p.headCylinder = some band.cylinder) :
    p.reseatRequest band = p.reseatStarted band := by
  unfold Port.reseatRequest Port.reseatStarted
  cases hk : p.kind with
  | cartridge => simp [hk, Port.enterPositioning, Port.ask, Config.overtime]
  | floppy | noDrive =>
    have hh : p.headCylinder = some band.cylinder := h.resolve_left (by simp [hk])
    by_cases h0 : band.cylinder = 0
    · simp [hk, hh, h0, Port.enterPositioning, Port.stepInward, Port.ask, Port.seekSettled, Port.onTarget, Config.overtime, Config.stepInterval]
    · have h1 : ¬(band.cylinder - 1 = band.cylinder) := by omega
      simp [hk, hh, h0, h1, Port.enterPositioning, Port.stepOutward, Port.ask, Port.seekSettled, Port.onTarget, Config.overtime, Config.stepInterval]

theorem needsNoPass_iff (u : State) (k : Key) :
    u.needsNoPass k = true ↔ ∃ e, u.entry k = some e ∧ e.state ∈ [.settled, .synthesized, .amended, .disputed] := by
  unfold State.needsNoPass
  cases he : u.entry k with
  | none => simp
  | some e => cases hs : e.state <;> simp [EntryState.closed, hs]

theorem mem_ids {m : Medium} {i : Nat} :
    i ∈ (List.range m.geometry.sectors).map (· + m.geometry.firstId) ↔ m.geometry.firstId ≤ i ∧ i < m.geometry.firstId + m.geometry.sectors := by
  simp only [List.mem_map, List.mem_range]
  constructor
  · rintro ⟨a, ha, rfl⟩; omega
  · rintro ⟨h1, h2⟩; exact ⟨i - m.geometry.firstId, by omega, by omega⟩

/-- What follows a drained pass (R72 to R74). -/
theorem decidePass_spec {u : State} (hs : u.OneId) (hk : u.OneKey) {j : Job} {m : Medium} (hj : u.job j.id = some j)
    (hm : u.medium j.handle = some m) :
    u.Judged (u.decidePass j) j m { j with tolerance := if j.attributes.escalate && !j.progress then satSucc 7 j.tolerance else j.tolerance } := by
  have hesc : j.escalate = { j with tolerance := if j.attributes.escalate && !j.progress then satSucc 7 j.tolerance else j.tolerance } := by
    unfold Job.escalate; split <;> rfl
  have hopen : ∀ i, m.geometry.firstId ≤ i → i < m.geometry.firstId + m.geometry.sectors →
      (∀ e, u.entry (j.keyOf i) = some e → e.state ∉ [.settled, .synthesized, .amended, .disputed]) →
      ((u.idsOf j).all fun sector => u.needsNoPass (j.keyOf sector)) = false := by
    intro i h1 h2 h3
    rw [idsOf_eq hm, List.all_eq_false]
    refine ⟨i, mem_ids.2 ⟨h1, h2⟩, fun h => ?_⟩
    obtain ⟨e, he, hst⟩ := (needsNoPass_iff _ _).1 h
    exact h3 e he hst
  have hup : u.updateJob j.id Job.escalate
      = u.withJob { j with tolerance := if j.attributes.escalate && !j.progress then satSucc 7 j.tolerance else j.tolerance } :=
    updateJob_eq_withJob hs hj hesc rfl
  refine ⟨fun h => ?_, fun i h1 h2 h3 hl hp => ?_, fun i h1 h2 h3 hl hp hr => ?_⟩
  · have hu : u.decidePass j = u.enterClosing j := by
      unfold State.decidePass
      rcases h with h | h
      · rw [if_pos]
        rw [idsOf_eq hm, List.all_eq_true]
        intro i hi
        obtain ⟨h1, h2⟩ := mem_ids.1 hi
        exact (needsNoPass_iff _ _).2 (h i h1 h2)
      · split
        · rfl
        · rw [if_neg (by omega)]
    rw [hu]
    exact enterClosing_spec hs hk hj hm
  · have hc : ((u.port j.drive).kind == .cartridge || j.attributes.reseat) = true := by
      rcases hp with h | h
      · simp [h]
      · simp [h.1]
    unfold State.decidePass
    rw [hopen i h1 h2 h3, if_neg (by simp), if_pos hl]
    simp only [hup, withJob_port, hc, if_true]
    unfold State.reseatJob
    rw [updateJob_withJob u (j := { j with tolerance := if j.attributes.escalate && !j.progress then satSucc 7 j.tolerance else j.tolerance })
      (k := { j with tolerance := if j.attributes.escalate && !j.progress then satSucc 7 j.tolerance else j.tolerance, state := .reseating }) rfl rfl rfl]
    show State.setPorts _ (u.ports.set j.drive ((u.port j.drive).reseatRequest j.band)) = _
    rw [reseatRequest_eq (hp.imp id And.right)]
    rfl
  · have hc : ((u.port j.drive).kind == .cartridge || j.attributes.reseat) = false := by simp [hp, hr]
    unfold State.decidePass
    rw [hopen i h1 h2 h3, if_neg (show ¬(false = true) from Bool.false_ne_true), if_pos hl]
    rw [hup]
    show State.AwaitsChannel _ (if ((u.port j.drive).kind == .cartridge || j.attributes.reseat) = true then _ else _) _
    rw [hc, if_neg (show ¬(false = true) from Bool.false_ne_true)]
    exact awaitChannel_spec (j := { j with tolerance := if j.attributes.escalate && !j.progress then satSucc 7 j.tolerance else j.tolerance })
      (withJob_oneId hs _) (job_withJob hj rfl)

theorem undrained_iff (u : State) (j : Job) : u.undrained j = true ↔ ∃ r ∈ u.input, r.key.OfBand j := by
  unfold State.undrained
  simp only [List.any_eq_true, Key.inBandOf, Bool.and_eq_true, beq_iff_eq, and_assoc]

/-- What follows when a pass may have been drained (R63, R70). -/
theorem checkDrained_spec {u : State} (hs : u.OneId) (hk : u.OneKey) {j : Job} (hj : u.job j.id = some j) :
    u.GoesOn (u.checkDrained j.id) j := by
  have hu : u.checkDrained j.id
      = if j.state == .streaming && j.phase == .draining && !u.undrained j then
          if j.ending.isSome then u.finishJob j.id else u.decidePass j
        else u := by
    unfold State.checkDrained
    rw [hj]
  have hd : j.state = .streaming → j.phase = .draining → (∀ r ∈ u.input, ¬r.key.OfBand j) →
      (j.state == .streaming && j.phase == .draining && !u.undrained j) = true := by
    intro h1 h2 h3
    have : u.undrained j = false := by
      cases hc : u.undrained j
      · rfl
      · obtain ⟨r, hr, hb⟩ := (undrained_iff u j).1 hc
        exact absurd hb (h3 r hr)
    simp [h1, h2, this]
  refine ⟨fun h => ?_, fun e h1 h2 h3 he => ?_, fun m h1 h2 h3 he hm => ?_⟩
  · rw [hu, if_neg]
    rcases h with h | h | h
    · simp [h]
    · simp [h]
    · simp [(undrained_iff u j).2 h]
  · rw [hu, if_pos (hd h1 h2 h3), if_pos (by simp [he])]
    exact finishJob_spec hs hj he
  · rw [hu, if_pos (hd h1 h2 h3), if_neg (by simp [he])]
    exact decidePass_spec hs hk hj hm

/-! ## The end of a pass -/

/-- What the release of a channel whose pass has ended brings (R96). -/
theorem release_spec {u : State} (hs : u.OneId) (hk : u.OneKey) {c : ChannelName} {j : Job} (hj : u.job j.id = some j)
    (hr : (u.channel c).receipt = none) : u.GivesBack ((u.release c).checkDrained j.id) c j := fun hne =>
  have hkeep := release_keeps c hne
  ⟨u.release c, release_released hs hr, checkDrained_spec (hkeep.oneId hs) (hkeep.oneKey hk) (hkeep.job.trans hj)⟩

theorem endStream_streaming {p : Port} (h : p.state = .streaming) : p.endStream = p.streamEnded := by
  unfold Port.endStream Port.streamEnded
  rw [if_pos (by simp [h])]
  cases hkd : p.kind <;> simp [Port.stopTape, Port.ask]

/-- The stream of a job ended at its port, and its record changed. -/
theorem endStream_withJob {u : State} (hs : u.OneId) {j k : Job} (hj : u.job j.id = some j) {f : Job → Job} (hf : f j = k) (hid : k.id = j.id)
    (hst : (u.port j.drive).state = .streaming) :
    (u.updatePort j.drive Port.endStream).updateJob j.id f
      = ({ u.withJob k with ports := u.ports.set j.drive (u.port j.drive).streamEnded } : State) := by
  rw [updateJob_eq_withJob (s := u.updatePort j.drive Port.endStream) hs hj hf hid]
  show ({ u.withJob k with ports := u.ports.set j.drive (u.port j.drive).endStream } : State) = _
  rw [endStream_streaming hst]

/-- How a pass ends normally (R16, R70, R77, R95 to R97, R102). -/
theorem endPassNormally_spec {u : State} (hs : u.OneId) (hk : u.OneKey) {c : ChannelName} {j : Job} (ho : (u.channel c).owner = some j.id)
    (hj : u.job j.id = some j) (hr : (u.channel c).receipt = none) (hst : (u.port j.drive).state = .streaming) :
    u.EndsPass (u.endPassNormally c) c j := by
  have hjob : u.passJob c = some j := by unfold State.passJob; rw [ho]; exact hj
  have hen : (u.updatePort j.drive Port.endStream).updateJob j.id Job.endPass = u.passEnded j := endStream_withJob hs hj rfl rfl hst
  have hu : u.endPassNormally c = ((if 1 < j.holdRemaining then
        (u.passEnded j).updateChannel c fun ch => { ch.dropReceipt with state := .held, endPending := none }
      else (u.passEnded j).release c) : State).checkDrained j.id := by
    unfold State.endPassNormally
    rw [hjob]
    simp only [hen]
  have hE : (u.passEnded j).OneId := withJob_oneId hs _
  have hK : (u.passEnded j).OneKey := hk
  have hJ : (u.passEnded j).job j.id = some j.passCounted := job_withJob hj rfl
  have hc : (u.passEnded j).channel c = u.channel c := by cases c <;> rfl
  refine ⟨fun h => ?_, fun h => ?_⟩
  · rw [hu, if_pos h, updateChannel_eq, hc, dropReceipt_of_none hr]
    exact checkDrained_spec (setChannel_oneId hE _ _) (setChannel_oneKey hK _ _) (j := j.passCounted) (by rw [setChannel_job]; exact hJ)
  · rw [hu, if_neg (by omega)]
    exact release_spec hE hK (j := j.passCounted) hJ (by rw [hc]; exact hr)

/-- How a pass ends by a cancel (R85, R102). -/
theorem endPassCancelled_spec {u : State} (hs : u.OneId) (hk : u.OneKey) {c : ChannelName} {j : Job} (ho : (u.channel c).owner = some j.id)
    (hj : u.job j.id = some j) (hr : (u.channel c).receipt = none) (hst : (u.port j.drive).state = .streaming) :
    u.EndsCancelled (u.endPassCancelled c) c j := by
  have hjob : u.passJob c = some j := by unfold State.passJob; rw [ho]; exact hj
  have hu : u.endPassCancelled c
      = (({ u.withJob { j with phase := .draining } with ports := u.ports.set j.drive (u.port j.drive).streamEnded } : State).release c).checkDrained j.id := by
    unfold State.endPassCancelled
    rw [hjob]
    dsimp only
    rw [endStream_withJob (k := { j with phase := .draining }) hs hj rfl rfl hst]
  rw [hu]
  exact release_spec (u := { u.withJob { j with phase := .draining } with ports := u.ports.set j.drive (u.port j.drive).streamEnded })
    (withJob_oneId hs _) hk (j := { j with phase := .draining }) (job_withJob hj rfl) (by cases c <;> exact hr)

/-! ## Endings from outside -/

theorem discarded_eq (ch : Channel) : ch.discarded = ch.dropReceipt := rfl

theorem toFree_eq (ch : Channel) : ch.toFree = ch.discarded.freed := by
  unfold Channel.toFree Channel.freed
  rfl

theorem discarded_receipt (ch : Channel) : ch.discarded.receipt = none := by
  unfold Channel.discarded
  split
  · rfl
  · assumption

/-- The channel of a job is released (R89, R96). -/
theorem releaseOf_spec {u : State} (hs : u.OneId) (id : Nat) : u.GivesUp (u.releaseOf id) id := by
  refine ⟨fun h => ?_, fun c h hr => ?_⟩
  · unfold State.releaseOf; rw [h]
  · unfold State.releaseOf; rw [h]; exact release_released hs hr

theorem releaseOf_keeps {u : State} {id k : Nat} (h : id ∉ u.waits) : u.Keeps (u.releaseOf k) id := by
  unfold State.releaseOf
  split
  · exact release_keeps _ h
  · exact .refl ..

/-- A release is the same where a sector in receipt is discarded first. -/
theorem release_discarded (u : State) (c : ChannelName) : (u.setChannel c (u.channel c).discarded).release c = u.release c := by
  unfold State.release
  simp only [updateChannel_eq, channel_setChannel, setChannel_setChannel, setChannel_waits]
  have : (u.channel c).discarded.toFree = (u.channel c).toFree := by
    rw [toFree_eq, toFree_eq]
    congr 1
    rw [discarded_eq, dropReceipt_of_none (discarded_receipt _)]
  rw [this]

theorem stopped_job {u : State} {j k : Job} (hj : u.job j.id = some j) (hid : k.id = j.id) : (u.stopped j k).job j.id = some k :=
  job_withJob (s := u) hj hid

theorem stopped_updateJob (u : State) {i j k : Job} {f : Job → Job} (hj : j.id = i.id) (hk : f j = k) (hid : k.id = i.id) :
    (u.stopped i j).updateJob i.id f = u.stopped i k :=
  congrArg (fun s : State => { s with waits := u.waits.filter (· != i.id) }) (updateJob_withJob u hj hk hid)

theorem discarded_owner (ch : Channel) : ch.discarded.owner = ch.owner := by
  unfold Channel.discarded Channel.setCondition Channel.setPlace
  split
  · rename_i r _
    cases r.place <;> rfl
  · rfl

/-- A discarded receipt leaves the owners of the channels. -/
theorem channelOf_discarded (u : State) (c : ChannelName) (id : Nat) : (u.setChannel c (u.channel c).discarded).channelOf id = u.channelOf id := by
  have := discarded_owner (u.channel c)
  cases c
  · show (if (u.channel .a).discarded.owner == _ then _ else if u.channelB.owner == _ then _ else _) = _
    rw [this]; rfl
  · show (if u.channelA.owner == _ then _ else if (u.channel .b).discarded.owner == _ then _ else _) = _
    rw [this]; rfl

theorem stopped_oneId {u : State} (hs : u.OneId) (j k : Job) : (u.stopped j k).OneId := withJob_oneId hs k

theorem stopped_waits (u : State) (j k : Job) : j.id ∉ (u.stopped j k).waits := by
  show j.id ∉ u.waits.filter (· != j.id)
  simp

theorem decideEnding_eq {u : State} (hs : u.OneId) {j : Job} (hj : u.job j.id = some j) (e : Ending) :
    u.decideEnding j.id e = u.stopped j (j.decide e) := by
  unfold State.decideEnding
  rw [updateJob_eq_withJob (k := j.decide e) hs hj rfl (decide_id j e)]
  rfl

theorem setChannel_input (s : State) (c : ChannelName) (v : Channel) : (s.setChannel c v).input = s.input := by cases c <;> rfl

theorem requestStream_input (s : State) (c : ChannelName) (j : Job) : (s.requestStream c j).1.input = s.input := by
  unfold State.requestStream State.enterRetensionWait
  split
  · rfl
  · dsimp only
    split
    · rfl
    · split
      · split <;> rfl
      · rw [updateChannel_eq, setChannel_input]; rfl

theorem grantWaiting_input (c : ChannelName) : ∀ (n : Nat) (s : State), (s.grantWaiting c n).input = s.input
  | 0, _ => rfl
  | n + 1, s => by
    unfold State.grantWaiting
    split
    · rfl
    · dsimp only
      split
      · exact grantWaiting_input c n _
      · split
        · rw [grantWaiting_input c n _, updateChannel_eq, setChannel_input, requestStream_input, updateChannel_eq, setChannel_input]; rfl
        · rw [requestStream_input, updateChannel_eq, setChannel_input]; rfl

theorem releaseOf_input (s : State) (id : Nat) : (s.releaseOf id).input = s.input := by
  unfold State.releaseOf State.release
  split
  · dsimp only
    rw [grantWaiting_input, updateChannel_eq, setChannel_input]
  · rfl

/-- How a media change or a DRIVE RESET stops a job (R63, R70, R81, R86, R87, R110). -/
theorem stopJob_spec {u : State} (hs : u.OneId) {j : Job} (hj : u.job j.id = some j) (e : Ending) : u.Stops (u.stopJob j e) j e := by
  have hu : u.stopJob j e
      = (if j.endsAtOnce then ((u.stopped j (j.decide e)).releaseOf j.id).postNotice j.id
        else if j.state == .streaming then
          if ((u.stopped j (j.decide e)).cutStream j).undrained j then (u.stopped j (j.decide e)).cutStream j
          else ((u.stopped j (j.decide e)).cutStream j).postNotice j.id
        else u.stopped j (j.decide e)) := by
    unfold State.stopJob
    rw [decideEnding_eq hs hj]
  refine ⟨fun h => ?_, fun k w h hk hn hc => ?_, fun h => ?_⟩
  · have he : j.endsAtOnce = true := by
      unfold Job.endsAtOnce
      cases hst : j.state <;> simp_all
    refine ⟨(u.stopped j (j.decide e)).releaseOf j.id, releaseOf_spec (stopped_oneId hs _ _) _, ?_⟩
    rw [hu, if_pos he]
    have hkj := (releaseOf_keeps (k := j.id) (stopped_waits u j (j.decide e))).job.trans (stopped_job hj (decide_id j e))
    have := postNotice_eq (j := j.decide e) (by rw [decide_id]; exact hkj) (decide_ending j e)
    rw [decide_id] at this
    exact this
  · subst hk
    have hid : ({ j.decide e with phase := .draining } : Job).id = j.id := decide_id j e
    have hup : (u.stopped j (j.decide e)).updateJob j.id (fun j => { j with phase := .draining })
        = u.stopped j { j.decide e with phase := .draining } := stopped_updateJob u (decide_id j e) rfl hid
    have hcut : (u.stopped j (j.decide e)).cutStream j = w.releaseOf j.id := by
      unfold State.cutStream
      rw [hup]
      cases hch : u.channelOf j.id with
      | none => rw [hn hch]
      | some c =>
        rw [hc c hch]
        unfold State.releaseOf
        rw [show ((u.stopped j { j.decide e with phase := .draining }).setChannel c (u.channel c).discarded).channelOf j.id = some c from
            (channelOf_discarded _ _ _).trans hch,
          show (u.stopped j { j.decide e with phase := .draining }).channelOf j.id = some c from hch]
        exact (release_discarded (u.stopped j { j.decide e with phase := .draining }) c).symm
    have hw : w.OneId ∧ j.id ∉ w.waits ∧ w.job j.id = some { j.decide e with phase := .draining } ∧ w.input = u.input := by
      cases hch : u.channelOf j.id with
      | none => rw [hn hch]; exact ⟨stopped_oneId hs _ _, stopped_waits _ _ _, stopped_job hj hid, rfl⟩
      | some c =>
        rw [hc c hch]
        exact ⟨setChannel_oneId (stopped_oneId hs _ _) _ _, by rw [setChannel_waits]; exact stopped_waits _ _ _,
          by rw [setChannel_job]; exact stopped_job hj hid, by rw [setChannel_input]; rfl⟩
    obtain ⟨h1, h2, h3, h4⟩ := hw
    have hin : (w.releaseOf j.id).undrained j = true ↔ ∃ r ∈ u.input, r.key.OfBand j := by
      rw [undrained_iff, releaseOf_input, h4]
    have hnot : j.endsAtOnce = false := by simp [Job.endsAtOnce, h]
    refine ⟨w.releaseOf j.id, releaseOf_spec h1 _, fun hr => ?_, fun hr => ?_⟩
    · rw [hu, hcut, hnot, if_neg Bool.false_ne_true, if_pos (by simp [h]), if_pos (hin.2 hr)]
    · have : ¬(w.releaseOf j.id).undrained j = true := fun hc => by
        obtain ⟨r, hr', hb⟩ := hin.1 hc
        exact hr r hr' hb
      rw [hu, hcut, hnot, if_neg Bool.false_ne_true, if_pos (by simp [h]), if_neg this]
      have := postNotice_eq (u := w.releaseOf j.id) (j := { j.decide e with phase := .draining })
        (by rw [show ({ j.decide e with phase := .draining } : Job).id = j.id from hid]; exact (releaseOf_keeps h2).job.trans h3) (decide_ending j e)
      rw [show ({ j.decide e with phase := .draining } : Job).id = j.id from hid] at this
      exact this
  · rw [hu, if_neg, if_neg]
    · simp [h]
    · simp [Job.endsAtOnce, h]

theorem left_job (u : State) {j : Job} {id : Nat} (h : j.id = id) (e : Ending) : (u.left j e).job id = none := by
  unfold State.job State.left
  rw [List.find?_eq_none]
  intro x hx
  have := (List.mem_filter.1 hx).2
  simpa [h] using this

/-- A stopped job stays in the table where its stream drains or its close goes on, and leaves otherwise. -/
theorem stopJob_job {u : State} (hs : u.OneId) {j : Job} (hj : u.job j.id = some j) (e : Ending) :
    (u.LeavesAtOnce j → (u.stopJob j e).job j.id = none) ∧ (¬u.LeavesAtOnce j → (u.stopJob j e).job j.id ≠ none) := by
  have hsp := stopJob_spec hs hj e
  have hcut : ∃ w : State, (u.channelOf j.id = none → w = u.stopped j { j.decide e with phase := .draining })
      ∧ ∀ c, u.channelOf j.id = some c → w = (u.stopped j { j.decide e with phase := .draining }).setChannel c (u.channel c).discarded := by
    cases u.channelOf j.id with
    | none => exact ⟨_, fun _ => rfl, fun c h => by simp at h⟩
    | some d => exact ⟨_, fun h => by simp at h, fun c h => by cases h; rfl⟩
  obtain ⟨w, hn, hc⟩ := hcut
  refine ⟨fun h => ?_, fun h => ?_⟩
  · rcases h with h | ⟨h, hr⟩
    · obtain ⟨v, _, hv⟩ := hsp.atOnce h
      rw [hv]
      exact left_job v (decide_id j e) _
    · obtain ⟨v, _, _, hv⟩ := hsp.cut _ w h rfl hn hc
      rw [hv hr]
      exact left_job v (j := { j.decide e with phase := .draining }) (decide_id j e) _
  · by_cases hst : j.state = .streaming
    · have hr : ∃ r ∈ u.input, r.key.OfBand j := by
        by_contra hne
        exact h (.inr ⟨hst, fun r hr hb => hne ⟨r, hr, hb⟩⟩)
      have hstop : u.stopJob j e = ((u.stopped j (j.decide e)).updateJob j.id fun j => { j with phase := .draining }).releaseOf j.id := by
        unfold State.stopJob
        rw [decideEnding_eq hs hj]
        have hin : ((u.stopped j (j.decide e)).cutStream j).undrained j = true := by
          rw [undrained_iff]
          unfold State.cutStream
          rw [releaseOf_input]
          exact hr
        simp only [Job.endsAtOnce, hst, Bool.false_eq_true, if_false, beq_self_eq_true, if_true, hin]
        rfl
      rw [hstop, stopped_updateJob u (k := { j.decide e with phase := .draining }) (decide_id j e) rfl (decide_id j e),
        (releaseOf_keeps (stopped_waits _ _ _)).job, stopped_job (k := { j.decide e with phase := .draining }) hj (decide_id j e)]
      simp
    · have hcl : j.state = .closing := by
        cases hq : j.state with
        | closing => rfl
        | streaming => exact absurd hq hst
        | queued | positioning | awaitingChannel | reseating | retensionWait => exact absurd (.inl (by simp [hq])) h
      rw [hsp.closes hcl, stopped_job hj (decide_id j e)]
      simp

theorem stopJob_oneId {u : State} (hs : u.OneId) {j : Job} (hj : u.job j.id = some j) (e : Ending) : (u.stopJob j e).OneId := by
  have hrel : ∀ v : State, v.OneId → j.id ∉ v.waits → (v.releaseOf j.id).OneId := fun v hv hw => (releaseOf_keeps (k := j.id) hw).oneId hv
  have hpost : ∀ v : State, v.OneId → (v.postNotice j.id).OneId := by
    intro v hv
    unfold State.postNotice
    split
    · exact hv
    · split
      · exact hv
      · exact List.Pairwise.filter _ hv
  have hup : ((u.stopped j (j.decide e)).updateJob j.id fun j => { j with phase := .draining })
      = u.stopped j { j.decide e with phase := .draining } := stopped_updateJob u (decide_id j e) rfl (decide_id j e)
  unfold State.stopJob State.cutStream
  rw [decideEnding_eq hs hj]
  dsimp only
  rw [hup]
  split
  · exact hpost _ (hrel _ (stopped_oneId hs _ _) (stopped_waits _ _ _))
  · split
    · split
      · exact hrel _ (stopped_oneId hs _ _) (stopped_waits _ _ _)
      · exact hpost _ (hrel _ (stopped_oneId hs _ _) (stopped_waits _ _ _))
    · exact stopped_oneId hs _ _

/-- What the port of a stopped job gets next (R65). -/
theorem afterStop_spec {v : State} (hs : v.OneId) (j : Job) (e : Ending) :
    (v.job j.id = none → v.Continues (v.afterStop (j.decide e)) (j.decide e) (j.ending.getD e))
      ∧ (v.job j.id ≠ none → v.afterStop (j.decide e) = v) := by
  refine ⟨fun h => ?_, fun h => ?_⟩
  · unfold State.afterStop
    rw [decide_id, h]
    exact afterLeaving_spec hs (decide_ending j e)
  · unfold State.afterStop
    rw [decide_id]
    cases hv : v.job j.id with
    | none => exact absurd hv h
    | some x => rfl

theorem brokenOff_eq (p : Port) : p.breakOff = p.brokenOff := by
  unfold Port.brokenOff
  cases hm : p.motor <;> simp [Port.breakOff, Port.stopTimers, Port.motorStop, Port.ask, hm]

/-- The port after a media-change report (R7, R22). -/
theorem mediaChange_eq (p : Port) : p.mediaChange = p.mediaChanged := by
  unfold Port.mediaChange Port.mediaChanged Port.brokenOff
  cases hs : p.state <;> cases hk : p.kind <;> cases hm : p.motor <;>
    simp [Port.enterFaulted, Port.breakOff, Port.stopTimers, Port.motorStop, Port.ask, Port.stopTape, hs, hk, hm] <;>
    (cases p; simp_all)

/-- The port after a DRIVE RESET (R26). -/
theorem driveReset_eq : Port.driveReset = Port.resetDone := by
  funext p
  unfold Port.driveReset Port.resetDone
  rw [brokenOff_eq]
  unfold Port.brokenOff
  cases hk : p.kind <;> simp [Port.inquire, Port.stopTape, Port.ask]

/-- What a release leaves of a job that neither waits nor owns a channel. -/
structure State.Untouched (s t : State) (id : Nat) : Prop extends s.Keeps t id where
  waits : id ∉ t.waits
  channel : t.channelOf id = none

/-- No channel is owned by job `id`. -/
abbrev State.OwnsNone (s : State) (id : Nat) : Prop := s.channelA.owner ≠ some id ∧ s.channelB.owner ≠ some id

theorem channelOf_none {s : State} {id : Nat} : s.channelOf id = none ↔ s.OwnsNone id := by
  unfold State.channelOf State.OwnsNone
  by_cases h1 : s.channelA.owner = some id
  · simp [h1]
  · by_cases h2 : s.channelB.owner = some id
    · simp [h1, h2]
    · simp [h1, h2]

theorem ownsNone_setChannel {s : State} {c : ChannelName} {v : Channel} {id : Nat} (h : s.OwnsNone id) (hv : v.owner ≠ some id) :
    (s.setChannel c v).OwnsNone id := by
  cases c
  · exact ⟨hv, h.2⟩
  · exact ⟨h.1, hv⟩

theorem ownsNone_channel {s : State} {id : Nat} (h : s.OwnsNone id) (c : ChannelName) : (s.channel c).owner ≠ some id := by
  cases c
  · exact h.1
  · exact h.2

theorem requestStream_owner {s : State} (c : ChannelName) (j : Job) {id : Nat} (h : s.OwnsNone id) : (s.requestStream c j).1.OwnsNone id := by
  unfold State.requestStream State.enterRetensionWait
  split
  · exact h
  · dsimp only
    split
    · exact h
    · split
      · split <;> exact h
      · rw [updateChannel_eq]
        refine ownsNone_setChannel h ?_
        unfold Channel.setUpPass
        rw [← discarded_eq]
        show (Channel.discarded _).owner ≠ _
        rw [discarded_owner]
        exact ownsNone_channel (s := ((s.updateJob j.id Job.beginPass).updateJob j.id _).updatePort _ _) h c

theorem toFree_owner (ch : Channel) (id : Nat) : ch.toFree.owner ≠ some id := by simp [Channel.toFree]

theorem grantWaiting_owner (c : ChannelName) {id : Nat} : ∀ (n : Nat) (s : State), id ∉ s.waits → s.OwnsNone id →
    (s.grantWaiting c n).OwnsNone id ∧ id ∉ (s.grantWaiting c n).waits
  | 0, _, hw, h => ⟨h, hw⟩
  | n + 1, s, hw, h => by
    unfold State.grantWaiting
    split
    · exact ⟨h, hw⟩
    · rename_i k rest hk
      rw [hk] at hw
      have hrest : id ∉ rest := fun hm => hw (List.mem_cons_of_mem _ hm)
      have hne : k ≠ id := fun e => hw (by rw [e]; exact List.mem_cons_self ..)
      have h1 : (s.setWaits rest).OwnsNone id := h
      dsimp only
      split
      · exact grantWaiting_owner c n _ hrest h1
      · rename_i j hj
        have h2 := requestStream_owner (s := (s.setWaits rest).updateChannel c fun ch => ch.grant k j.drive) c j (id := id)
          (ownsNone_setChannel h1 (by simp [Channel.grant, hne]))
        have hw2 : (((s.setWaits rest).updateChannel c fun ch => ch.grant k j.drive).requestStream c j).1.waits = rest := by
          rw [requestStream_waits, updateChannel_eq, setChannel_waits]; rfl
        split
        · refine grantWaiting_owner c n _ ?_ ?_
          · rw [updateChannel_eq, setChannel_waits, hw2]; exact hrest
          · rw [updateChannel_eq]; exact ownsNone_setChannel h2 (toFree_owner _ _)
        · exact ⟨h2, by rw [hw2]; exact hrest⟩

theorem releaseOf_untouched {u : State} {id k : Nat} (hw : id ∉ u.waits) (hc : u.channelOf id = none) : u.Untouched (u.releaseOf k) id := by
  have h := channelOf_none.1 hc
  refine { toKeeps := releaseOf_keeps hw, waits := ?_, channel := ?_ }
  all_goals
    unfold State.releaseOf
    split
    · unfold State.release
      have hg := grantWaiting_owner ‹ChannelName› (id := id) (u.updateChannel ‹ChannelName› Channel.toFree).waits.length
        (u.updateChannel ‹ChannelName› Channel.toFree) (by rw [updateChannel_eq, setChannel_waits]; exact hw)
        (by rw [updateChannel_eq]; exact ownsNone_setChannel h (toFree_owner _ _))
      first | exact hg.2 | exact channelOf_none.2 hg.1
    · first | exact hw | exact hc

theorem postNotice_untouched {u : State} {id k : Nat} (hne : k ≠ id) (hw : id ∉ u.waits) (hc : u.channelOf id = none) :
    (u.postNotice k).job id = u.job id ∧ id ∉ (u.postNotice k).waits ∧ (u.postNotice k).channelOf id = none := by
  unfold State.postNotice
  split
  · exact ⟨rfl, hw, hc⟩
  · split
    · exact ⟨rfl, hw, hc⟩
    · refine ⟨?_, hw, hc⟩
      show (u.jobs.filter fun x => x.id != k).find? _ = u.jobs.find? _
      induction u.jobs with
      | nil => rfl
      | cons x rest ih =>
        by_cases h : x.id = k
        · have h' : ¬x.id = id := fun e => hne (h.symm.trans e)
          simp [h, hne, ih]
        · by_cases h' : x.id = id
          · have hk : ¬id = k := fun e => hne e.symm
            simp [h', hk]
          · simp [h, h', ih]

/-- A job that neither waits nor owns a channel is not touched by the stop of another. -/
theorem stopJob_untouched {u : State} (hs : u.OneId) {j : Job} (hj : u.job j.id = some j) (e : Ending) {id : Nat} (hne : j.id ≠ id)
    (hw : id ∉ u.waits) (hc : u.channelOf id = none) :
    (u.stopJob j e).job id = u.job id ∧ id ∉ (u.stopJob j e).waits ∧ (u.stopJob j e).channelOf id = none := by
  have hst : ∀ k : Job, k.id = j.id → (u.stopped j k).job id = u.job id ∧ id ∉ (u.stopped j k).waits ∧ (u.stopped j k).channelOf id = none :=
    fun k hk => ⟨job_withJob_other (by rw [hk]; exact hne), fun h => hw (List.mem_filter.1 h).1, hc⟩
  have hup : ((u.stopped j (j.decide e)).updateJob j.id fun j => { j with phase := .draining })
      = u.stopped j { j.decide e with phase := .draining } := stopped_updateJob u (decide_id j e) rfl (decide_id j e)
  have hgo : ∀ k : Job, k.id = j.id → ((u.stopped j k).releaseOf j.id).job id = u.job id ∧ id ∉ ((u.stopped j k).releaseOf j.id).waits
      ∧ ((u.stopped j k).releaseOf j.id).channelOf id = none := by
    intro k hk
    obtain ⟨h1, h2, h3⟩ := hst k hk
    have h := releaseOf_untouched (k := j.id) h2 h3
    exact ⟨h.job.trans h1, h.waits, h.channel⟩
  have hpost : ∀ v : State, (v.job id = u.job id ∧ id ∉ v.waits ∧ v.channelOf id = none) →
      (v.postNotice j.id).job id = u.job id ∧ id ∉ (v.postNotice j.id).waits ∧ (v.postNotice j.id).channelOf id = none := by
    rintro v ⟨h1, h2, h3⟩
    obtain ⟨k1, k2, k3⟩ := postNotice_untouched hne h2 h3
    exact ⟨k1.trans h1, k2, k3⟩
  unfold State.stopJob State.cutStream
  rw [decideEnding_eq hs hj]
  dsimp only
  rw [hup]
  split
  · exact hpost _ (hgo _ (decide_id j e))
  · split
    · split
      · exact hgo { j.decide e with phase := .draining } (decide_id j e)
      · exact hpost _ (hgo { j.decide e with phase := .draining } (decide_id j e))
    · exact hst _ (decide_id j e)

theorem bandEntries_decide (u : State) (j : Job) (e : Ending) : u.bandEntries (j.decide e) = u.bandEntries j := by
  unfold Job.decide Job.breakHold
  split <;> split <;> rfl

theorem allLeft_nil (u : State) (e : Ending) : u.allLeft [] e = u := by
  have : u.jobs.filter (fun x => decide (∀ j ∈ ([] : List Job), j.id ≠ x.id)) = u.jobs := by simp
  unfold State.allLeft
  rw [this]
  simp

theorem allLeft_cons (u : State) (j : Job) (js : List Job) (e : Ending) :
    (u.left (j.decide e) (j.ending.getD e)).allLeft js e = u.allLeft (j :: js) e := by
  have hf : (u.left (j.decide e) (j.ending.getD e)).jobs.filter (fun x => decide (∀ k ∈ js, k.id ≠ x.id))
      = u.jobs.filter fun x => decide (∀ k ∈ j :: js, k.id ≠ x.id) := by
    show (u.jobs.filter fun x => x.id != (j.decide e).id).filter _ = _
    rw [List.filter_filter, decide_id]
    apply List.filter_congr
    intro x _
    by_cases h : x.id = j.id
    · simp [h]
    · simp [h, Ne.symm h]
  unfold State.allLeft
  rw [hf]
  simp only [State.left, bandEntries_decide, List.map_cons, List.append_assoc, List.singleton_append, List.length_cons]
  rw [Nat.sub_sub, Nat.add_comm 1]
  rfl

/-- Queued jobs that neither wait nor own a channel leave at once, in their order (R63, R87). -/
theorem resetJobs_queued : ∀ (js : List Job) {u : State}, u.OneId → (js.Pairwise fun a b => a.id ≠ b.id) →
    (∀ x ∈ js, u.job x.id = some x ∧ x.state = .queued ∧ x.id ∉ u.waits ∧ u.channelOf x.id = none) →
    u.resetJobs js = u.allLeft js (.cancelled .driveReset)
  | [], u, _, _, _ => (allLeft_nil u _).symm
  | j :: rest, u, hs, hp, h => by
    obtain ⟨hj, hq, hw, hc⟩ := h j (List.mem_cons_self ..)
    have hstop : u.stopJob j (.cancelled .driveReset) = u.left (j.decide (.cancelled .driveReset)) (j.ending.getD (.cancelled .driveReset)) := by
      obtain ⟨v, hv, he⟩ := (stopJob_spec hs hj (.cancelled .driveReset)).atOnce (by simp [hq])
      rw [he, hv.none hc]
      have hwf : u.waits.filter (· != j.id) = u.waits := List.filter_eq_self.2 fun x hx => by
        simpa using fun e : x = j.id => hw (e ▸ hx)
      have : u.stopped j (j.decide (.cancelled .driveReset)) = u.withJob (j.decide (.cancelled .driveReset)) := by
        unfold State.stopped
        rw [hwf]
        rfl
      rw [this, left_withJob _ _ rfl]
    rw [State.resetJobs, hstop, ← allLeft_cons]
    refine resetJobs_queued rest (left_oneId hs _ _) (List.pairwise_cons.1 hp).2 fun x hx => ?_
    obtain ⟨h1, h2, h3, h4⟩ := h x (List.mem_cons_of_mem _ hx)
    have hne : j.id ≠ x.id := (List.pairwise_cons.1 hp).1 x hx
    refine ⟨?_, h2, h3, h4⟩
    rw [← hstop]
    exact ((stopJob_untouched hs hj _ hne h3 h4).1).trans h1

theorem resetJobs_append (a b : List Job) : ∀ u : State, u.resetJobs (a ++ b) = (u.resetJobs a).resetJobs b := by
  induction a with
  | nil => exact fun _ => rfl
  | cons j rest ih => exact fun u => ih _

end Sys2Proof.Machine
end

