-- ==== Sys2Proof/Laws/Synthesis.lean ====
section
/-! SUPPORT. What the synthesis unit takes when a request has ended: how a close goes on, and that the requests judged after it come to
an end; and when a version equals no candidate of its entry (R116). -/

namespace Sys2Proof.Machine

/-! ## What a leaving keeps -/

/-- The ids of the jobs, each with the number of the sector ids its close has not reached. -/
def State.toReach (s : State) : List (Nat × Nat) := s.jobs.map fun j => (j.id, j.closeLeft.length)

/-- What the leaving of jobs and the grants that follow it keep: no job comes, no close has more to reach, the keys of the table and the
unit stay. -/
structure State.Settles (s t : State) : Prop where
  reach : t.toReach.Sublist s.toReach
  keys : t.entries.map Entry.key = s.entries.map Entry.key
  unit : t.synth = s.synth

theorem State.Settles.refl (s : State) : s.Settles s := ⟨List.Sublist.refl _, rfl, rfl⟩
theorem State.Settles.trans {s t u : State} (h : s.Settles t) (k : t.Settles u) : s.Settles u :=
  ⟨k.reach.trans h.reach, k.keys.trans h.keys, k.unit.trans h.unit⟩

theorem toReach_updateJob (s : State) (id : Nat) {f : Job → Job} (hf : ∀ j, (f j).id = j.id ∧ (f j).closeLeft.length = j.closeLeft.length) :
    (s.updateJob id f).toReach = s.toReach := by
  show (s.jobs.map _).map _ = s.jobs.map _
  rw [List.map_map]
  apply List.map_congr_left
  intro j _
  simp only [Function.comp]
  split <;> simp [hf]

theorem updateJob_settles (s : State) (id : Nat) {f : Job → Job}
    (hf : ∀ j, (f j).id = j.id ∧ (f j).closeLeft.length = j.closeLeft.length) : s.Settles (s.updateJob id f) :=
  ⟨by rw [toReach_updateJob s id hf], rfl, rfl⟩

theorem setChannel_settles (s : State) (c : ChannelName) (v : Channel) : s.Settles (s.setChannel c v) := by
  cases c <;> exact ⟨List.Sublist.refl _, rfl, rfl⟩

theorem updatePort_settles (s : State) (p : Fin 4) (f : Port → Port) : s.Settles (s.updatePort p f) := ⟨List.Sublist.refl _, rfl, rfl⟩

theorem setWaits_settles (s : State) (l : List Nat) : s.Settles (s.setWaits l) := ⟨List.Sublist.refl _, rfl, rfl⟩

theorem breakHold_reach (j : Job) : j.breakHold.id = j.id ∧ j.breakHold.closeLeft.length = j.closeLeft.length := by
  unfold Job.breakHold; split <;> exact ⟨rfl, rfl⟩

theorem decide_reach (j : Job) (e : Ending) : (j.decide e).id = j.id ∧ (j.decide e).closeLeft.length = j.closeLeft.length := by
  unfold Job.decide; split <;> exact breakHold_reach j

theorem enterRetensionWait_settles (s : State) (j : Job) : s.Settles (s.enterRetensionWait j) := by
  have h := updateJob_settles s j.id (f := fun j => { j with state := .retensionWait }) fun _ => ⟨rfl, rfl⟩
  unfold State.enterRetensionWait
  dsimp only
  split
  · exact h.trans (updatePort_settles _ _ _)
  · exact h

theorem requestStream_settles (s : State) (c : ChannelName) (j : Job) : s.Settles (s.requestStream c j).1 := by
  unfold State.requestStream
  split
  · exact .refl _
  · have hb := updateJob_settles s j.id (f := Job.beginPass) fun _ => ⟨rfl, rfl⟩
    dsimp only
    split
    · exact hb
    · split
      · exact hb.trans ((updateJob_settles _ _ breakHold_reach).trans (enterRetensionWait_settles _ _))
      · exact hb.trans ((updateJob_settles _ _ (f := fun j => { j with state := .streaming }) fun _ => ⟨rfl, rfl⟩).trans
          ((updatePort_settles _ _ _).trans (setChannel_settles _ _ _)))

theorem grantWaiting_settles (c : ChannelName) : ∀ (n : Nat) (s : State), s.Settles (s.grantWaiting c n)
  | 0, s => .refl _
  | n + 1, s => by
    unfold State.grantWaiting
    split
    · exact .refl _
    · rename_i k rest _
      have h1 := setWaits_settles s rest
      dsimp only
      split
      · exact h1.trans (grantWaiting_settles c n _)
      · have h2 := fun v j => h1.trans ((setChannel_settles (s.setWaits rest) c v).trans (requestStream_settles _ c j))
        split
        · exact ((h2 _ _).trans (setChannel_settles _ c _)).trans (grantWaiting_settles c n _)
        · exact h2 _ _

theorem release_settles (s : State) (c : ChannelName) : s.Settles (s.release c) :=
  (setChannel_settles s c _).trans (grantWaiting_settles c _ _)

theorem awaitChannel_settles (s : State) (id : Nat) : s.Settles (s.awaitChannel id) := by
  unfold State.awaitChannel
  split
  · exact .refl _
  · have h := updateJob_settles s id (f := fun j => { j with state := .awaitingChannel }) fun _ => ⟨rfl, rfl⟩
    dsimp only
    split
    · have h2 := fun c j => h.trans (requestStream_settles _ c j)
      split
      · exact (h2 _ _).trans (release_settles _ _)
      · exact h2 _ _
    · split
      · exact h.trans (setWaits_settles _ _)
      · have h2 := fun c v j => h.trans ((setChannel_settles _ c v).trans (requestStream_settles _ c j))
        split
        · exact (h2 _ _ _).trans (release_settles _ _)
        · exact h2 _ _ _

theorem positionJob_settles (s : State) (j : Job) : s.Settles (s.positionJob j) := by
  unfold State.positionJob
  split
  · exact .refl _
  · have h := fun f => (updateJob_settles s j.id (f := fun j => { j with state := .positioning }) fun _ => ⟨rfl, rfl⟩).trans
      (updatePort_settles _ j.drive f)
    dsimp only
    split
    · exact (h _).trans ((updatePort_settles _ _ _).trans (awaitChannel_settles _ _))
    · exact h _

theorem startJob_settles (s : State) (j : Job) : s.Settles (s.startJob j) := by
  unfold State.startJob
  dsimp only
  split
  · exact enterRetensionWait_settles s j
  · split
    · exact awaitChannel_settles s j.id
    · exact positionJob_settles s j

theorem postNotice_settles (s : State) (id : Nat) : s.Settles (s.postNotice id) := by
  unfold State.postNotice
  split
  · exact .refl _
  · split
    · exact .refl _
    · exact ⟨List.Sublist.map _ (List.filter_sublist (l := s.jobs)), rfl, rfl⟩

theorem offerLoop_settles (p : Fin 4) : ∀ (n : Nat) (s : State), s.Settles (s.offerLoop p n)
  | 0, s => .refl _
  | n + 1, s => by
    unfold State.offerLoop
    split
    · split
      · exact .refl _
      · split
        · exact startJob_settles s _
        · exact ((updateJob_settles s _ fun j => decide_reach j _).trans (postNotice_settles _ _)).trans (offerLoop_settles p n _)
    · exact .refl _

theorem afterLeaving_settles (s : State) (j : Job) : s.Settles (s.afterLeaving j) := by
  unfold State.afterLeaving
  split
  · exact .refl _
  · dsimp only
    split
    · exact updatePort_settles _ _ _
    · split
      · exact updatePort_settles _ _ _
      · exact offerLoop_settles _ _ _

theorem finishJob_settles (s : State) (id : Nat) : s.Settles (s.finishJob id) := by
  unfold State.finishJob
  split
  · exact .refl _
  · exact (postNotice_settles s id).trans (afterLeaving_settles _ _)

/-! ## What a close may ask -/

/-- The number of judgements that can follow: the requests that wait, and those the closes may still make. -/
theorem serveBound_eq (s : State) : s.serveBound = s.synth.wait.length + (s.toReach.map Prod.snd).sum := by
  unfold State.serveBound State.toReach
  rw [List.map_map]
  rfl

/-- What the close of one job may do: no job comes, the keys of the table stay, and no more judgements follow than before. -/
structure State.Bounds (s t : State) : Prop where
  ids : (t.jobs.map Job.id).Sublist (s.jobs.map Job.id)
  keys : t.entries.map Entry.key = s.entries.map Entry.key
  bound : t.serveBound ≤ s.serveBound

theorem State.Bounds.trans {s t u : State} (h : s.Bounds t) (k : t.Bounds u) : s.Bounds u :=
  ⟨k.ids.trans h.ids, k.keys.trans h.keys, k.bound.trans h.bound⟩

theorem State.Bounds.oneId {s t : State} (h : s.Bounds t) (hs : s.OneId) : t.OneId :=
  List.pairwise_map.1 ((List.pairwise_map.2 hs : (s.jobs.map Job.id).Pairwise (· ≠ ·)).sublist h.ids)

theorem State.Bounds.oneKey {s t : State} (h : s.Bounds t) (hs : s.OneKey) : t.OneKey := by
  have : (s.entries.map Entry.key).Pairwise (· ≠ ·) := List.pairwise_map.2 hs
  rw [← h.keys] at this
  exact List.pairwise_map.1 this

theorem sum_sublist {a b : List Nat} (h : a.Sublist b) : a.sum ≤ b.sum := by
  induction h with
  | slnil => exact le_rfl
  | cons x _ ih => simp only [List.sum_cons]; omega
  | cons_cons x _ ih => simp only [List.sum_cons]; omega

theorem State.Settles.bounds {s t : State} (h : s.Settles t) : s.Bounds t where
  ids := by
    have := h.reach.map Prod.fst
    unfold State.toReach at this
    rw [List.map_map, List.map_map] at this
    exact this
  keys := h.keys
  bound := by
    rw [serveBound_eq, serveBound_eq, h.unit]
    exact Nat.add_le_add_left (sum_sublist (h.reach.map Prod.snd)) _

/-- The close of job `id` has at least `n` sector ids to reach. -/
structure State.HasToReach (s : State) (id n : Nat) : Prop where
  listed : ∃ x ∈ s.toReach, x.1 = id
  left : ∀ x ∈ s.toReach, x.1 = id → n ≤ x.2

theorem State.HasToReach.mono {s : State} {id m n : Nat} (h : s.HasToReach id n) (hm : m ≤ n) : s.HasToReach id m :=
  ⟨h.listed, fun x hx e => hm.trans (h.left x hx e)⟩

theorem State.HasToReach.congr {s t : State} {id n : Nat} (h : s.HasToReach id n) (e : t.toReach = s.toReach) : t.HasToReach id n := by
  constructor
  · rw [e]; exact h.listed
  · rw [e]; exact h.left

theorem sum_lower {l : List (Nat × Nat)} {id n : Nat} (h : ∀ x ∈ l, x.1 = id → n ≤ x.2) :
    (l.map fun x => if x.1 == id then n else x.2).sum ≤ (l.map Prod.snd).sum := by
  induction l with
  | nil => exact le_rfl
  | cons x l ih =>
    have ih := ih fun y hy => h y (List.mem_cons_of_mem _ hy)
    have hx := h x (List.mem_cons_self ..)
    simp only [List.map_cons, List.sum_cons]
    by_cases e : x.1 = id
    · have := hx e
      simp only [e, beq_self_eq_true, if_true]
      omega
    · rw [if_neg (show ¬(x.1 == id) = true by simpa using e)]
      omega

theorem sum_lower_one {l : List (Nat × Nat)} {id n : Nat} (h : ∀ x ∈ l, x.1 = id → n + 1 ≤ x.2) (he : ∃ x ∈ l, x.1 = id) :
    (l.map fun x => if x.1 == id then n else x.2).sum + 1 ≤ (l.map Prod.snd).sum := by
  induction l with
  | nil => obtain ⟨x, hx, _⟩ := he; cases hx
  | cons x l ih =>
    have hx := h x (List.mem_cons_self ..)
    have hl : ∀ y ∈ l, y.1 = id → n + 1 ≤ y.2 := fun y hy => h y (List.mem_cons_of_mem _ hy)
    simp only [List.map_cons, List.sum_cons]
    by_cases e : x.1 = id
    · have := hx e
      have := sum_lower (l := l) (id := id) (n := n) fun y hy ey => (hl y hy ey).trans' (Nat.le_succ n)
      simp only [e, beq_self_eq_true, if_true]
      omega
    · have he' : ∃ y ∈ l, y.1 = id := by
        obtain ⟨y, hy, ey⟩ := he
        rcases List.mem_cons.1 hy with rfl | hy
        · exact absurd ey e
        · exact ⟨y, hy, ey⟩
      have := ih hl he'
      rw [if_neg (show ¬(x.1 == id) = true by simpa using e)]
      omega

/-- The close of job `id` has `n` ids to reach from now on. -/
theorem toReach_set (s : State) (id : Nat) {f : Job → Job} {n : Nat} (hf : ∀ j, (f j).id = j.id ∧ (f j).closeLeft.length = n) :
    (s.updateJob id f).jobs.map Job.id = s.jobs.map Job.id
      ∧ ((s.updateJob id f).toReach.map Prod.snd) = s.toReach.map fun x => if x.1 == id then n else x.2 := by
  have e : ∀ j : Job, (if j.id == id then f j else j).id = j.id := fun j => by split <;> simp [hf]
  constructor
  · show (s.jobs.map _).map _ = s.jobs.map _
    rw [List.map_map]
    exact List.map_congr_left fun j _ => e j
  · show ((s.jobs.map _).map _).map _ = (s.jobs.map _).map _
    rw [List.map_map, List.map_map, List.map_map]
    apply List.map_congr_left
    intro j _
    simp only [Function.comp]
    split <;> simp [hf]

/-- A request has started: the jobs, the table and the wait list stay. -/
theorem judgeStart_inl {s t : State} {r : SynthRequest} (h : s.judgeStart r = .inl t) :
    t.jobs = s.jobs ∧ t.entries = s.entries ∧ t.synth.wait = s.synth.wait := by
  unfold State.judgeStart at h
  split at h
  · cases h
  · split at h
    · cases h
    · split at h
      · cases h
      · split at h
        · cases h
        · split at h
          · cases h
          · unfold State.claimFrame at h
            cases hp : s.pool with
            | nil => rw [hp] at h; cases h
            | cons f rest => rw [hp] at h; cases h; exact ⟨rfl, rfl, rfl⟩

theorem synthArrive_inl {s t : State} {r : SynthRequest} (h : s.synthArrive r = .inl t) :
    t.jobs = s.jobs ∧ t.entries = s.entries ∧ t.synth.wait.length ≤ s.synth.wait.length + 1 := by
  unfold State.synthArrive at h
  split at h
  · obtain ⟨h1, h2, h3⟩ := judgeStart_inl h
    exact ⟨h1, h2, by rw [h3]; omega⟩
  · cases h
    exact ⟨rfl, rfl, by simp [State.setSynth]⟩

theorem updateEntry_become_settles (s : State) (k : Key) (st : EntryState) (b : Option Nat) :
    s.Settles (s.updateEntry k fun e => e.become st b) := by
  refine ⟨List.Sublist.refl _, ?_, rfl⟩
  show (s.entries.map _).map _ = s.entries.map _
  rw [List.map_map]
  apply List.map_congr_left
  intro e _
  simp only [Function.comp]
  split <;> rfl

theorem markEntry_settles (s : State) (j : Job) (sector : Nat) (lack : Bool) :
    s.Settles (s.markEntry j sector lack) ∧ (s.markEntry j sector lack).toReach = s.toReach := by
  unfold State.markEntry
  dsimp only
  split
  · exact ⟨.refl _, rfl⟩
  · split
    · split
      · exact ⟨updateJob_settles s _ fun _ => ⟨rfl, rfl⟩, toReach_updateJob s _ fun _ => ⟨rfl, rfl⟩⟩
      · have h := updateEntry_become_settles s (j.keyOf sector) .exhausted none
        split
        · exact ⟨h.trans (updateJob_settles _ _ fun _ => ⟨rfl, rfl⟩), toReach_updateJob _ _ fun _ => ⟨rfl, rfl⟩⟩
        · exact ⟨h, rfl⟩
    all_goals first | exact ⟨updateEntry_become_settles s _ _ _, rfl⟩ | exact ⟨.refl _, rfl⟩

/-- A close asks for no more than it has to reach (R78). -/
theorem closeFrom_bounds (j : Job) : ∀ (ids : List Nat) {s : State}, s.HasToReach j.id ids.length → s.Bounds (State.closeFrom j ids s)
  | [], s, h => by
    unfold State.closeFrom State.closeDone
    refine State.Bounds.trans ?_ (finishJob_settles _ _).bounds
    obtain ⟨h1, h2⟩ := toReach_set s j.id (f := fun j => { j.decide .done with closeHand := none, closeLeft := [] }) (n := 0)
      fun x => ⟨(decide_reach x _).1, rfl⟩
    refine ⟨by rw [h1], rfl, ?_⟩
    rw [serveBound_eq, serveBound_eq, h2]
    exact Nat.add_le_add_left (sum_lower h.left) _
  | sector :: rest, s, h => by
    have hmark : ∀ lack, s.Bounds (State.closeFrom j rest (s.markEntry j sector lack)) := fun lack =>
      (markEntry_settles s j sector lack).1.bounds.trans
        (closeFrom_bounds j rest ((h.congr (markEntry_settles s j sector lack).2).mono (Nat.le_succ _)))
    unfold State.closeFrom
    split
    · cases ha : s.synthArrive ⟨j.keyOf sector, .close j.id⟩ with
      | inr x => exact hmark _
      | inl t =>
        obtain ⟨hj, he, hw⟩ := synthArrive_inl ha
        have hr : t.toReach = s.toReach := by unfold State.toReach; rw [hj]
        have ht := h.congr hr
        obtain ⟨h1, h2⟩ := toReach_set t j.id (f := fun j => { j with closeHand := some sector, closeLeft := rest }) (n := rest.length)
          fun x => ⟨rfl, rfl⟩
        refine ⟨by dsimp only; rw [h1, hj], by dsimp only; show t.entries.map _ = _; rw [he], ?_⟩
        have := sum_lower_one (l := t.toReach) (id := j.id) (n := rest.length) ht.left ht.listed
        dsimp only
        rw [serveBound_eq, serveBound_eq, h2, ← hr]
        show t.synth.wait.length + _ ≤ _
        omega
    · exact hmark false

/-- What a close that goes on may do (R152). -/
theorem resumeClose_bounds {u : State} (hs : u.OneId) (id : Nat) (r : SynthEnd) : u.Bounds (u.resumeClose id r) := by
  unfold State.resumeClose
  split
  · exact (State.Settles.refl u).bounds
  · rename_i j hj
    split
    · exact (State.Settles.refl u).bounds
    · rename_i sector _
      have h := updateJob_settles u id (f := fun j => { j with closeHand := none }) fun _ => ⟨rfl, rfl⟩
      have e := toReach_updateJob u id (f := fun j => { j with closeHand := none }) fun _ => ⟨rfl, rfl⟩
      dsimp only
      split
      · exact (h.trans (finishJob_settles _ _)).bounds
      · have hm := markEntry_settles (u.updateJob id fun j => { j with closeHand := none }) j sector r.noFrame
        refine (h.trans hm.1).bounds.trans (closeFrom_bounds j j.closeLeft (State.HasToReach.congr ?_ (hm.2.trans e)))
        obtain ⟨hmem, hid⟩ := job_mem hj
        refine ⟨⟨(j.id, j.closeLeft.length), List.mem_map.2 ⟨j, hmem, rfl⟩, rfl⟩, fun x hx ex => ?_⟩
        obtain ⟨k, hk, rfl⟩ := List.mem_map.1 hx
        have : u.job k.id = some k := job_oneId hs hk
        rw [show k.id = j.id from ex, hid, hj] at this
        cases this
        exact le_rfl

/-! ## What follows a vote -/

/-- How a close goes on when the request it waited for has ended (R81, R152). -/
theorem resumeClose_spec {u : State} (hs : u.OneId) (hk : u.OneKey) {id : Nat} {key : Key} {r : SynthEnd}
    (hr : r.noFrame = true → ∃ e, u.entry key = some e ∧ e.state = .weak ∧ e.pinned = false ∧ 3 ≤ e.candidates.length) :
    u.CloseResumes (u.resumeClose id r) id key r.noFrame.toNat := by
  refine ⟨fun j k sector e hj hh he hkj => ?_, fun j k sector hj hh he hkey hkj => ?_⟩
  · subst hkj
    obtain rfl : j.id = id := (job_mem hj).2
    have hu : u.resumeClose j.id r = (u.withJob { j with closeHand := none }).finishJob j.id := by
      unfold State.resumeClose
      rw [hj]
      simp only [hh]
      rw [if_pos (show j.ending.isSome = true by simp [he]), updateJob_eq_withJob (k := { j with closeHand := none }) hs hj rfl rfl]
    rw [hu]
    exact finishJob_spec (withJob_oneId hs _) (j := { j with closeHand := none }) (job_withJob hj rfl) he
  · subst hkj
    obtain rfl : j.id = id := (job_mem hj).2
    have hw : (u.withJob { j with closeHand := none }).job ({ j with closeHand := none } : Job).id = some { j with closeHand := none } :=
      job_withJob hj rfl
    have hask : r.noFrame = true → (u.withJob { j with closeHand := none }).asksAt { j with closeHand := none } sector = true := by
      intro hn
      obtain ⟨e, hee, h1, h2, h3⟩ := hr hn
      have hkey' : key = j.keyOf sector := by
        rcases hkey with h | h
        · rw [hn] at h; cases h
        · exact h
      show (u.entry (j.keyOf sector)).any _ = true
      rw [← hkey', hee]
      simp [h1, h2, h3]
    have hu : u.resumeClose j.id r
        = State.closeFrom j j.closeLeft
            ((u.withJob { j with closeHand := none }).markedAt { j with closeHand := none } [sector] r.noFrame.toNat) := by
      unfold State.resumeClose
      rw [hj]
      simp only [hh]
      rw [if_neg (show ¬j.ending.isSome = true by simp [he]), updateJob_eq_withJob (k := { j with closeHand := none }) hs hj rfl rfl,
        markEntry_eq (j0 := j) (withJob_oneId hs _) hk hw rfl sector rfl _ hask]
    rw [hu]
    exact closeFrom_spec (markedAt_oneId (withJob_oneId hs _) _ _ _) (markedAt_oneKey (u := u.withJob { j with closeHand := none }) hk _ _ _)
      (j0 := j) (j := { ({ j with closeHand := none } : Job) with
        skipped := (satSucc 32)^[u.pinnedWeak j [sector]] j.skipped
        readingsDropped := (satSucc 65535)^[r.noFrame.toNat] j.readingsDropped })
      (markedAt_job hw [sector] _) ⟨rfl, fun _ => rfl, rfl⟩ _

/-- A request is judged (R144): it starts, or its first failing test ends it. -/
theorem judgeStart_cases (u : State) (r : SynthRequest) :
    (∃ e frame pool, u.entry r.key = some e ∧ e.pinned = false ∧ 3 ≤ e.readCount ∧ u.pool = frame :: pool
      ∧ (e.state = .weak ∨ (r.source.isCommand = true ∧ e.state = .exhausted))
      ∧ (r.source.isCommand = true → u.bandJob r.key.handle r.key.cylinder r.key.head = none)
      ∧ u.judgeStart r = .inl { u with
          pool := pool
          synth := { u.synth with
            inHand := some r, workFrame := some frame, inputs := some (u.synthInputs (u.kindOf r.key.handle) e.size e.candidates 0)
            kind := u.kindOf r.key.handle, contested := 0, ties := 0 } })
    ∨ ∃ code body, u.StartFails r.key r.source.isCommand code body ∧ u.judgeStart r = .inr (code, body) := by
  unfold State.judgeStart
  cases he : u.entry r.key with
  | none => exact .inr ⟨_, _, .inl ⟨he, rfl, rfl⟩, rfl⟩
  | some e =>
    cases hb : (if r.source.isCommand = true then u.bandJob r.key.handle r.key.cylinder r.key.head else none) with
    | some j =>
      refine .inr ⟨.bandActive, [numberWord j.id], .inr ⟨e, he, .inl ⟨j, ?_⟩⟩, by simp⟩
      by_cases hc : r.source.isCommand = true
      · rw [if_pos hc] at hb; exact ⟨hc, hb, rfl, rfl⟩
      · rw [if_neg hc] at hb; cases hb
    | none =>
      have hb' : r.source.isCommand = true → u.bandJob r.key.handle r.key.cylinder r.key.head = none := fun hc => by
        rw [if_pos hc] at hb; exact hb
      dsimp only
      by_cases hp : e.pinned = true
      · exact .inr ⟨_, _, .inr ⟨e, he, .inr ⟨hb', .inl ⟨hp, rfl, rfl⟩⟩⟩, by rw [if_pos hp]⟩
      · have hp' : e.pinned = false := by simpa using hp
        rw [if_neg hp]
        have hst : (!(e.state == .weak || (r.source.isCommand && e.state == .exhausted))) = true
            ↔ ¬(e.state = .weak ∨ (r.source.isCommand = true ∧ e.state = .exhausted)) := by
          cases r.source.isCommand <;> simp
        by_cases hw : e.state = .weak ∨ (r.source.isCommand = true ∧ e.state = .exhausted)
        · rw [if_neg (fun h => hst.1 h hw)]
          by_cases hr : e.readCount < 3
          · exact .inr ⟨_, _, .inr ⟨e, he, .inr ⟨hb', .inr ⟨hp', .inr ⟨hw, .inl ⟨hr, rfl, rfl⟩⟩⟩⟩⟩,
              by rw [if_pos (show e.readCount < Config.synthesisInputs from hr)]⟩
          · rw [if_neg (show ¬e.readCount < Config.synthesisInputs from hr)]
            unfold State.claimFrame
            cases hpool : u.pool with
            | nil => exact .inr ⟨_, _, .inr ⟨e, he, .inr ⟨hb', .inr ⟨hp', .inr ⟨hw, .inr ⟨by omega, hpool, rfl, rfl⟩⟩⟩⟩⟩, rfl⟩
            | cons frame pool =>
              refine .inl ⟨e, frame, pool, rfl, hp', by omega, rfl, hw, hb', ?_⟩
              dsimp only
              rw [synthInputs_congr (s := u.setPool pool) (t := u) rfl]
              rfl
        · rw [if_pos (hst.2 hw)]
          exact .inr ⟨_, _, .inr ⟨e, he, .inr ⟨hb', .inr ⟨hp', .inl ⟨hw, rfl, rfl⟩⟩⟩⟩, rfl⟩

/-- What the unit takes next when a request has ended (R143, R144): the judgements come to an end within the bound. -/
theorem serveLoop_serves : ∀ (n : Nat) {u : State}, u.OneId → u.OneKey → u.serveBound ≤ n → u.Serves (u.serveLoop n)
  | 0, u, _, _, hb => by
    have hw : u.synth.wait = [] := by
      unfold State.serveBound at hb
      exact List.length_eq_zero_iff.1 (by omega)
    exact .rests (.inr hw)
  | n + 1, u, hs, hk, hb => by
    unfold State.serveLoop
    by_cases hi : u.synth.inputs = none
    · rw [if_pos (show u.synth.idle = true by simp [Synth.idle, hi])]
      cases hw : u.synth.wait with
      | nil => exact .rests (.inr hw)
      | cons r rest =>
        dsimp only
        have hb' : (u.setSynth { u.synth with wait := rest }).serveBound + 1 = u.serveBound := by
          unfold State.serveBound
          rw [hw]
          show rest.length + (u.jobs.map fun j => j.closeLeft.length).sum + 1 = rest.length + 1 + (u.jobs.map fun j => j.closeLeft.length).sum
          omega
        rcases judgeStart_cases (u.setSynth { u.synth with wait := rest }) r with ⟨e, frame, pool, he, hp, hr, hpool, hst, hband, hj⟩ | ⟨code, body, hf, hj⟩
        · rw [hj]
          dsimp only
          have := State.Serves.starts (u := u) r rest e frame pool hi hw he hp hr hpool (by
            cases hsrc : r.source with
            | close id =>
              rw [hsrc] at hst
              refine .inl ⟨⟨id, rfl⟩, ?_⟩
              rcases hst with h | ⟨h, _⟩
              · exact h
              · cases h
            | command q tag via =>
              rw [hsrc] at hst hband
              exact .inr ⟨⟨q, tag, via, rfl⟩, hst.imp id And.right, hband rfl⟩)
          rw [synthInputs_congr (s := u.setSynth { u.synth with wait := rest }) (t := u) rfl]
          exact this
        · rw [hj]
          dsimp only
          have hf' : u.StartFails r.key r.source.isCommand code body := hf
          unfold State.reportSynth
          obtain ⟨key, source⟩ := r
          cases source with
          | command q tag via =>
            refine .refuses key q tag via rest code body hi hw hf' (serveLoop_serves n hs hk ?_)
            show (u.setSynth { u.synth with wait := rest }).serveBound ≤ n
            omega
          | close id =>
            have hs' : (u.setSynth { u.synth with wait := rest }).OneId := hs
            have hb2 := resumeClose_bounds hs' id (.atStart code body)
            refine .passes key id rest code body hi hw hf' ?_ (serveLoop_serves n (hb2.oneId hs') (hb2.oneKey hk) ?_)
            · have hl : (SynthEnd.atStart code body).noFrame.toNat = if code = .noFrame then 1 else 0 := by
                cases code <;> rfl
              rw [← hl]
              refine resumeClose_spec hs' hk fun hn => ?_
              have hc : code = .noFrame := by cases code <;> first | rfl | cases hn
              subst hc
              rcases hf' with ⟨_, h, _⟩ | ⟨e, he, h⟩
              · cases h
              · rcases h with ⟨_, _, _, h, _⟩ | ⟨_, h⟩
                · cases h
                · rcases h with ⟨_, h, _⟩ | ⟨hp, h⟩
                  · cases h
                  · rcases h with ⟨_, h, _⟩ | ⟨hst, h⟩
                    · cases h
                    · rcases h with ⟨_, h, _⟩ | ⟨hr, _⟩
                      · cases h
                      · refine ⟨e, he, ?_, hp, hr.trans List.countP_le_length⟩
                        rcases hst with h | ⟨h, _⟩
                        · exact h
                        · cases h
            · refine hb2.bound.trans ?_
              show (u.setSynth { u.synth with wait := rest }).serveBound ≤ n
              omega
    · rw [if_neg (show ¬u.synth.idle = true by simpa [Synth.idle] using hi)]
      exact .rests (.inl hi)

theorem serveNext_spec {u : State} (hs : u.OneId) (hk : u.OneKey) : u.Serves u.serveNext := serveLoop_serves _ hs hk le_rfl

/-! ## Identity at the placing -/

/-- The bytes of a frame make no version identical to a candidate (R116): each candidate differs in its check value or in a byte. -/
theorem identical_eq_none_iff (s : State) (e : Entry) (frame : Nat) (check : Word) :
    s.identical e (s.frameData frame e.size) check = none ↔
      ∀ c ∈ e.candidates, ¬(c.check = check
        ∧ ∀ i, i < sectorLength e.size → s.memory.read (1024 * c.frame + i) = s.memory.read (1024 * frame + i)) := by
  unfold State.identical State.frameData
  rw [List.findIdx?_eq_none_iff]
  have : ∀ f, frameAddress f = 1024 * f := fun f => by unfold frameAddress Config.frameBytes; omega
  simp [Memory.readBlock_eq_map, this]

end Sys2Proof.Machine
end

