-- ==== Sys2Proof/Tests/Slice0.lean ====
section
/-! SUPPORT. The tests of the model: ill-formed terms that the check refuses, the checks of R108 on known bytes, single steps with
values of the manual, and for each statement states that meet its hypotheses. -/

namespace Sys2Proof.Tests

-- One test after another: tests that run the kernel at the same time each hold a thread of their own.
set_option Elab.async false

open Sys2Proof Sys2Proof.Machine

/-! ## Terms that are not well formed -/

theorem test_unknown_command_ill_formed : (Instr.unknownCommand .console 0 24).wellFormed = false := by decide
theorem test_unknown_command_well_formed : (Instr.unknownCommand .console 0 99).wellFormed = true := by decide
theorem test_header_sector_ill_formed : (Instr.goodHeader 0 0 0 256 0).wellFormed = false := by decide
theorem test_header_cylinder_ill_formed : (Instr.goodHeader 0 1024 0 0 0).wellFormed = false := by decide
theorem test_header_head_ill_formed : (Instr.goodHeader 0 0 64 0 0).wellFormed = false := by decide
theorem test_header_size_ill_formed : (Instr.goodHeader 0 0 0 0 4).wellFormed = false := by decide
theorem test_data_length_ill_formed : (Instr.dataFieldEnd 0 [1, 2, 3] 0 []).wellFormed = false := by decide
theorem test_data_offset_ill_formed : (Instr.dataFieldEnd 0 (List.replicate 128 0) 0 [132]).wellFormed = false := by decide +kernel
theorem test_data_well_formed : (Instr.dataFieldEnd 0 (List.replicate 128 0) 0 [131]).wellFormed = true := by decide +kernel

/-! ## Values of the manual -/

/-- The nine characters 1 to 9, whose 16-bit and 32-bit checks of these two forms are published. -/
def digits : List Byte := [0x31, 0x32, 0x33, 0x34, 0x35, 0x36, 0x37, 0x38, 0x39]

theorem test_check16 : check16 digits = 0x29B1 := by decide +kernel
theorem test_check32 : check32 digits = 0x0376E6E7 := by decide +kernel
/-- R202, R203: DRIVE CONFIG, tag 5, port 1, floppy, 15 ms, 600 ms, 2000 ms, 24 passes, on. -/
def driveConfigWords : Record := ⟨0x01050000, 0x00000400, 0x4F4B07D0, 0x31000000⟩

theorem test_drive_config_record :
    driveConfigWords.command = .driveConfig 1 ⟨1, 15, 600, 2000, 24, true⟩
    ∧ (HostCommand.driveConfig 1 ⟨1, 15, 600, 2000, 24, true⟩).record 5 = driveConfigWords := by decide
/-- R202, R203: CHOOSE, tag 0xA7, handle 2, cylinder 5, head 1, sector id 3, candidate 2, and every bit that it does not read set. -/
def chooseWords : Record := ⟨0x23A70805, 0x040C0BFF, 0xFFFFFFFF, 0xFFFFFFFF⟩

theorem test_choose_record : chooseWords.command = .choose ⟨2, 5, 1, 3⟩ 2 ∧ chooseWords.tag = 0xA7 := by decide
/-- R47: cylinder 7 with cylinder mask 1008 matches cylinders 0 to 15. -/
theorem test_match_digits : (MatchPart.mk 0 0 7 1008 0 true).passes 5 15 1 = true ∧ (MatchPart.mk 0 0 7 1008 0 true).passes 5 16 1 = false := by
  decide
theorem test_reset_idle : step State.reset = .next State.reset := by rfl

/-! ## States -/

def base : State := State.reset
def floppyAt (st : PortState) : Port := { Port.reset with kind := .floppy, state := st, ready := true }
def tapeAt (st : PortState) : Port := { Port.reset with kind := .cartridge, state := st, ready := true }
def disk : Medium := ⟨0, .floppy, ⟨80, 2, 9, 1, 2, .mfm, .k500⟩, 3, 1, true⟩
def tape : Medium := ⟨1, .cartridge, ⟨100, 4, 16, 0, 2, .fixed, .fixed⟩, 0, 2, true⟩
/-- A floppy on port 0 under handle 1, a tape on port 1 under handle 2, and an ALIAS of the tape under handle 3. -/
def lab : State :=
  { base with ports := ⟨floppyAt .idle, tapeAt .idle, Port.reset, Port.reset⟩
              volumes := ((base.volumes.set 1 (.medium disk)).set 2 (.medium tape)).set 3 (.view ⟨2, 10, 20, 3⟩) }
def withPort (s : State) (p : Fin 4) (v : Port) : State := s.setPort p v
def jobOn (id : Nat) (handle : Nat) (m : Medium) (cylinder head : Nat) (st : JobState) : Job :=
  { Job.opened id ⟨handle, m, cylinder, head, 0, none⟩ 0 (10, Attributes.reset) .console 7 with state := st }
def tapeJob (st : JobState) : Job := jobOn 0 2 tape 5 1 st
def diskJob (st : JobState) : Job := jobOn 1 1 disk 5 1 st
/-- The lab with these jobs, whose ids stand below 10. -/
def withJobs (s : State) (jobs : List Job) : State :=
  { s with jobs := jobs, nextJobId := 10, link := { s.link with reserved := jobs.length } }
def cand (frame agree : Nat) (clean : Bool) : Candidate := ⟨frame, 0, clean, .read, agree, 1, [], false⟩
def entryAt (st : EntryState) (cs : List Candidate) : Entry := { Entry.fresh ⟨2, 5, 1, 3⟩ 2 2 with state := st, candidates := cs }
def withEntry (s : State) (e : Entry) : State := { s with entries := [e] }
/-- A reading has joined the table: frame 0 of landing place 1 of channel A stands with a candidate, and frame 4 in its place. -/
def exchanged : State :=
  { withEntry lab (entryAt .tentative [cand 0 1 true]) with
    channelA := Channel.reset 4 1, pool := (List.range 2048).drop 5 }
def outbound : Transfer := ⟨.outbound, ⟨2, 5, 1, 3⟩, .console, 7, 0, 4, some 0, 2, .cartridge, 0, 129, 0⟩
def inbound : Transfer := ⟨.inbound, ⟨2, 5, 1, 3⟩, .console, 7, 0, 4, none, 2, .cartridge, 0, 128, 0⟩
def tapePass : PassParameters := ⟨1, 2, .first, .cartridge, .fixed, .fixed⟩
def diskPass (rule : StartRule) : PassParameters := ⟨1, 2, rule, .floppy, .mfm, .k500⟩
/-- Channel A granted to job `id` on port `p`. -/
def granted (id : Nat) (p : Fin 4) (st : ChannelState) (parameters : PassParameters) : Channel :=
  { Channel.reset 0 1 with state := st, owner := some id, port := some p, parameters := some parameters, grants := 1 }
/-- The tape streams through channel A for a job that has readings in the queue. -/
def waitingReading : Reading := ⟨⟨2, 5, 1, 3⟩, 2, some ⟨true, 0, .b, .one⟩, [], false, 1, 1⟩
def diskReading : Reading := { waitingReading with key := ⟨1, 5, 1, 3⟩ }
def tapeStream (hold faults : Nat) (st : ChannelState) : State :=
  { withJobs (withPort lab 1 { tapeAt .streaming with streamWatchdog := some 2000 })
      [{ tapeJob .streaming with holdRemaining := hold, consecutiveFaults := faults }] with
    channelA := granted 0 1 st tapePass, input := [waitingReading] }
def diskStream (v : Verification) (hold : Nat) (rule : StartRule) (st : ChannelState) : State :=
  { withJobs (withPort lab 0 { floppyAt .streaming with streamWatchdog := some 600 })
      [{ diskJob .streaming with verification := v, holdRemaining := hold }] with
    channelA := granted 1 0 st (diskPass rule), input := [diskReading] }
def inReceipt (s : State) (mark : Bool) : State :=
  { s with channelA := { s.channelA with receipt := some ⟨.one, 3, 2, 1, mark⟩, headersTaken := 1, state := .capturing
                                         placeOne := ⟨0, .receiving⟩ } }

theorem ready_iff (s : State) : s.Ready ↔ s.link.console.records = [] ∧ s.link.transfer.records = [] ∧ 2 ≤ s.link.freePlaces :=
  ⟨fun h => ⟨h.console, h.transfer, h.places⟩, fun h => ⟨h.1, h.2.1, h.2.2⟩⟩

theorem jobsSound_iff (s : State) :
    s.JobsSound ↔ s.jobs.length ≤ 8 ∧ s.jobs.Pairwise Job.Apart ∧ (∀ j ∈ s.jobs, j.id < 256) ∧ s.nextJobId < 256
      ∧ (∀ j ∈ s.jobs, j.id ≠ s.nextJobId) ∧ ∀ j ∈ s.jobs, j.layout.length ≤ 40 :=
  ⟨fun h => ⟨h.count, h.apart, h.ids, h.next, h.fresh, h.layouts⟩, fun h => ⟨h.1, h.2.1, h.2.2.1, h.2.2.2.1, h.2.2.2.2.1, h.2.2.2.2.2⟩⟩

theorem tableSound_iff (s : State) :
    s.TableSound ↔ s.entries.length ≤ 1024 ∧ s.entries.Pairwise (fun a b => a.key.before b.key = true)
      ∧ ∀ e ∈ s.entries, e.candidates.length ≤ 4 :=
  ⟨fun h => ⟨h.count, h.order, h.candidates⟩, fun h => ⟨h.1, h.2.1, h.2.2⟩⟩

/-- The chain of checks answers `v`; it refuses with `e`. -/
def okIs {α : Type} [DecidableEq α] : Except ChainRefusal α → α → Bool
  | .ok x, v => decide (x = v)
  | .error _, _ => false
def errIs {α : Type} : Except ChainRefusal α → ChainRefusal → Bool
  | .ok _, _ => false
  | .error x, e => decide (x = e)

theorem ok_iff {α : Type} [DecidableEq α] (r : Except ChainRefusal α) (v : α) : r = .ok v ↔ okIs r v = true := by
  cases r <;> simp [okIs]
theorem err_iff {α : Type} (r : Except ChainRefusal α) (e : ChainRefusal) : r = .error e ↔ errIs r e = true := by
  cases r <;> simp [errIs]

/-! ## States that meet the hypotheses of the statements

Each theorem shows, clause by clause, that some state and operands meet the hypotheses of the statement it is named for. -/

theorem witness_StepRunsFrontCommand : ({ base with pending := [.voteEnd, .takeReading] } : State).pending = .voteEnd :: [.takeReading] := rfl

/-- Both resets; and a part whose landing place has given frame 0 to a candidate for frame 4, and whose frames obey their law. -/
theorem witness_ResetValues :
    (Instr.powerOn ∈ [Instr.powerOn, .resetLine] ∧ Instr.resetLine ∈ [Instr.powerOn, .resetLine]) ∧ exchanged.FramesSound := by
  refine ⟨by decide, by decide, ?_⟩
  have frames : ∀ pool, ({ exchanged with pool := pool } : State).allFrames = pool ++ [4, 1, 2, 3] ++ [0] := fun pool => by
    show pool ++ [4, 1, 2, 3] ++ ([0] ++ [] ++ []) = _; rfl
  rw [show exchanged.allFrames = _ from frames _, List.append_assoc]
  have h : (List.range 2048).take 5 = [0, 1, 2, 3, 4] := by decide +kernel
  refine (List.Perm.append_left _ (show [4, 1, 2, 3, 0].Perm ((List.range 2048).take 5) by rw [h]; decide)).trans ?_
  exact List.perm_append_comm.trans (by rw [List.take_append_drop])

/-- An empty assembly; three words while 31 places are taken, over an empty and over a full list; three words of a record. -/
theorem witness_CommandQueueWrite :
    (base.link.lane .console).assembly.length < 3
    ∧ (let s : State := { base with link := { base.link with console := ⟨[1, 2, 3], []⟩, reserved := 31 } }
       (s.link.lane .console).assembly = [1, 2, 3] ∧ s.link.freePlaces < 2 ∧ (s.link.lane .console).records.length < 8)
    ∧ (let s : State := { base with link := { base.link with console := ⟨[1, 2, 3], List.replicate 8 ⟨0, 0, 0, 0⟩⟩, reserved := 31 } }
       (s.link.lane .console).assembly = [1, 2, 3] ∧ s.link.freePlaces < 2 ∧ 8 ≤ (s.link.lane .console).records.length)
    ∧ (HostCommand.restart.wellFormed = true
       ∧ (({ base.link with console := ⟨[((HostCommand.record 0 .restart)).w0, 0, 0], []⟩ } : Link).lane .console).assembly
          = [(HostCommand.record 0 .restart).w0, (HostCommand.record 0 .restart).w1, (HostCommand.record 0 .restart).w2]) := by decide +kernel

/-- A record with the bits that its command does not read set, whose last word comes at a ready intake. -/
theorem witness_CommandQueueWrite_layout :
    let s : State := { base with link := { base.link with console := ⟨[chooseWords.w0, chooseWords.w1, chooseWords.w2], []⟩ } }
    s.Ready ∧ (s.link.lane .console).assembly = [chooseWords.w0, chooseWords.w1, chooseWords.w2]
    ∧ (HostCommand.choose ⟨2, 5, 1, 3⟩ 2).wellFormed = true ∧ spells chooseWords 0xA7 (.choose ⟨2, 5, 1, 3⟩ 2)
    ∧ spells driveConfigWords 5 (.driveConfig 1 ⟨1, 15, 600, 2000, 24, true⟩)
    ∧ chooseWords ≠ (HostCommand.choose ⟨2, 5, 1, 3⟩ 2).record 0xA7 := by
  simp only [ready_iff, spells]; decide

theorem witness_ResponseQueueRead :
    base.link.responses = []
    ∧ (let s : State := { base with link := { base.link with responses := [[1, 2]] } }
       s.link.responses = [1, 2] :: [] ∧ s.link.wordsRead + 1 < [1, 2].length)
    ∧ (let s : State := { base with link := { base.link with responses := [[1, 2]], wordsRead := 1 } }
       s.link.responses = [1, 2] :: [] ∧ s.link.wordsRead + 1 = [1, 2].length)
    ∧ base.link.console.records = [] ∧ base.link.transfer.records = [] := by decide

/-- Too few places; records in both lists, taken from the preferred one; a list alone, not preferred. -/
theorem witness_ResponseQueueRead_intake :
    let r : Record := ⟨0, 0, 0, 0⟩
    let both : Link := { base.link with console := ⟨[], [r]⟩, transfer := ⟨[], [r]⟩ }
    ({ both with reserved := 31 } : Link).freePlaces < 2
    ∧ (2 ≤ both.freePlaces ∧ (both.lane .console).records = r :: [] ∧ Queue.console = both.preference)
    ∧ (let alone : Link := { base.link with transfer := ⟨[], [r]⟩ }
       2 ≤ alone.freePlaces ∧ (alone.lane .transfer).records = r :: [] ∧ (alone.lane alone.preference).records = [])
    ∧ HostCommand.restart.wellFormed = true ∧ base.Ready := by
  simp only [ready_iff]; decide

theorem witness_DataPortRead :
    (({ base with transfer := some outbound } : State).transfer = some outbound ∧ outbound.direction = .outbound ∧ outbound.moved + 1 < outbound.total
      ∧ outbound.kind = .cartridge ∧ 0 < sectorLength outbound.size / 4 ∧ ({ outbound with kind := .floppy } : Transfer).kind = .floppy)
    ∧ ({ outbound with moved := 128 } : Transfer).moved + 1 = ({ outbound with moved := 128 } : Transfer).total
    ∧ base.transfer = none ∧ inbound.direction = .inbound := by decide

theorem witness_DataPortWrite :
    (({ base with transfer := some inbound } : State).transfer = some inbound ∧ inbound.direction = .inbound ∧ inbound.moved + 1 < inbound.total
      ∧ inbound.total ≤ 256)
    ∧ (base.transfer = none ∨ ∃ t, base.transfer = some t ∧ t.direction = .outbound) := ⟨by decide, .inl rfl⟩

/-- The last word of an inbound transfer: no entry; another size; the version equal to a candidate; an entry with room; a full one. -/
theorem witness_InboundCompletes :
    let t : Transfer := { inbound with moved := 127 }
    let s : State := { lab with transfer := some t, pool := lab.pool.tail }
    let u (s : State) : State := s.writeFrame t.frame (4 * t.moved) (bytesOfWord 0)
    (s.TableSound ∧ s.transfer = some t ∧ t.direction = .inbound ∧ t.moved + 1 = t.total ∧ s.entry t.key = none)
    ∧ ((withEntry s { entryAt .weak [] with size := 1 }).TableSound ∧ (withEntry s { entryAt .weak [] with size := 1 }).entry t.key = some { entryAt .weak [] with size := 1 } ∧ (1 : Nat) ≠ t.size)
    ∧ (let s := withEntry s (entryAt .weak [cand 5 1 false])
       s.TableSound ∧ s.entry t.key = some (entryAt .weak [cand 5 1 false]) ∧ (entryAt .weak [cand 5 1 false]).size = t.size ∧ s.kindOf t.key.handle = t.kind
       ∧ (u s).identical (entryAt .weak [cand 5 1 false]) ((u s).frameData t.frame t.size) t.check = some 0)
    ∧ (let s := withEntry s (entryAt .expected [])
       s.TableSound ∧ s.entry t.key = some (entryAt .expected []) ∧ (u s).identical (entryAt .expected []) ((u s).frameData t.frame t.size) t.check = none
       ∧ (entryAt .expected []).candidates.length < 4)
    ∧ (let e := entryAt .weak [{ cand 5 2 false with check := 1 }, { cand 6 1 false with check := 2 }, { cand 7 1 false with check := 3 },
                               { cand 8 3 false with check := 4 }]
       let s := withEntry s e
       s.TableSound ∧ s.entry t.key = some e ∧ (u s).identical e ((u s).frameData t.frame t.size) t.check = none ∧ e.candidates.length = 4
       ∧ e.weakest = some 1 ∧ e.candidates[1]? = some { cand 6 1 false with check := 2 }) := by
  simp only [tableSound_iff]; decide +kernel

/-- A list with a bad candidate, and one of clean ones. -/
theorem witness_InboundCompletes_weakest :
    (∃ c ∈ (entryAt .weak [cand 5 1 true, cand 6 2 false]).candidates, c.clean = false)
    ∧ (∀ c ∈ (entryAt .weak [cand 5 2 true, cand 6 1 true]).candidates, c.clean = true)
    ∧ (entryAt .weak [cand 5 1 true, cand 6 2 false]).weakest = some 1 ∧ (entryAt .weak [cand 5 2 true, cand 6 1 true]).weakest = some 1 := by
  decide

theorem witness_IntakeRefusals :
    base.Ready ∧ namesCommand 0 = false ∧ namesCommand 255 = false
    ∧ 3 < (4 : BitVec 8).toNat ∧ 2 < (3 : BitVec 8).toNat ∧ 11 < (12 : BitVec 8).toNat ∧ 1024 < (1025 : BitVec 11).toNat
    ∧ (1024 : Word).extractLsb' 10 22 ≠ 0
    ∧ malformed .restart = false ∧ malformed (.setTransferLevel 3) = false ∧ malformed (.driveReset 3) = false := by
  simp only [ready_iff]; decide

/-- Values at the ends of their ranges: 60 ms, 2000 ms, 8000 ms, 64 passes, and one beyond. -/
theorem witness_DriveConfigSetsPort :
    let port0 := (0 : BitVec 8)
    let f (kind : BitVec 2) : ConfigField := ⟨kind, 60, 2000, 8000, 64, true⟩
    base.Ready ∧ port0.toNat = (0 : Fin 4).val ∧ (f 1).kind ≠ 3 ∧ kindOfNumber (f 1).kind.toNat = .floppy
    ∧ ((withPort base 0 (floppyAt .faulted)).port 0).state = .faulted
    ∧ ((withPort base 0 (floppyAt .streaming)).port 0).state ∉ [.faulted, .offline, .idle]
    ∧ (((withJobs lab [diskJob .queued]).port 0).state ≠ .faulted ∧ ∃ j ∈ (withJobs lab [diskJob .queued]).jobs, j.drive = 0)
    ∧ ((lab.port 0).state = .idle ∧ lab.jobs = [] ∧ kindOfNumber (f 2).kind.toNat ≠ (lab.port 0).kind
        ∧ 1 ∈ handles ∧ lab.medium 1 = some disk ∧ disk.drive = 0)
    ∧ ((base.port 0).state = .offline ∧ kindOfNumber (f 0).kind.toNat = (base.port 0).kind)
    ∧ (kindOfNumber (f 1).kind.toNat = (lab.port 0).kind ∧ (1 ≤ (f 1).settle.toNat ∧ (f 1).settle.toNat ≤ 60)
        ∧ (100 ≤ (f 1).index.toNat ∧ (f 1).index.toNat ≤ 2000) ∧ (500 ≤ (f 1).mark.toNat ∧ (f 1).mark.toNat ≤ 8000)
        ∧ (4 ≤ (f 1).interval.toNat ∧ (f 1).interval.toNat ≤ 64))
    ∧ (kindOfNumber (f 1).kind.toNat ≠ (base.port 0).kind ∧ ∀ h ∈ handles, base.medium h = none)
    ∧ ¬((61 : BitVec 6).toNat ≤ 60) := by
  simp only [ready_iff]; decide +kernel

theorem witness_ParkAndRetension :
    base.Ready ∧ (1 : BitVec 8).toNat = (1 : Fin 4).val ∧ lab.Ready
    ∧ (base.port 1).state = .offline ∧ ((withPort lab 1 (tapeAt .faulted)).port 1).state = .faulted
    ∧ ((withPort lab 1 (tapeAt .parking)).port 1).state ∈ [.positioning, .streaming, .parking, .retensioning]
    ∧ ((lab.port 1).state ∈ [.idle, .onBand] ∧ ∃ j ∈ (withJobs lab [tapeJob .closing]).jobs, j.drive = 1 ∧ j.state ≠ .queued)
    ∧ ((lab.port 1).state ∈ [.idle, .onBand] ∧ (lab.port 1).kind = .cartridge ∧ (lab.port 1).ready = true ∧ lab.jobs = [])
    ∧ ((lab.port 0).state ∈ [.idle, .onBand] ∧ (lab.port 0).kind = .floppy ∧ (lab.port 0).state ∉ [.offline, .faulted])
    ∧ ((withPort lab 1 (tapeAt .streaming)).port 1).state ∉ [.idle, .onBand]
    ∧ ((withJobs lab [tapeJob .closing]).activeJob 1 = some (tapeJob .closing) ∧ (tapeJob .closing).state ≠ .retensionWait)
    ∧ ((withPort lab 1 { tapeAt .idle with ready := false }).port 1).ready = false
    ∧ ∀ j ∈ (withJobs lab [tapeJob .retensionWait]).jobs, j.drive = 1 → j.state = .queued ∨ j.state = .retensionWait := by
  simp only [ready_iff]; decide +kernel

theorem witness_DriveResetEndsWork :
    let s := withJobs (withPort lab 1 (tapeAt .faulted)) [tapeJob .queued]
    s.Ready ∧ s.JobsSound ∧ (s.port 1).state ∉ [.retensioning, .offline]
    ∧ (∀ j ∈ s.jobs, j.drive = 1 → j.state = .queued ∧ j.ending = none ∧ j.id ∉ s.waits ∧ s.channelOf j.id = none)
    ∧ (withPort lab 1 (tapeAt .retensioning)).Ready ∧ ((withPort lab 1 (tapeAt .retensioning)).port 1).state = .retensioning
    ∧ (base.port 1).state = .offline := by
  simp only [ready_iff, jobsSound_iff]; decide +kernel

/-- An active job between queued ones: it streams with readings of its band to take, and with none; it closes; it waits for a channel. -/
theorem witness_DriveResetEndsWork_active :
    let q (id : Nat) : Job := { tapeJob .queued with id := id, cylinder := id }
    let s (st : JobState) : State := withJobs (withPort lab 1 (tapeAt .streaming)) [q 8, tapeJob st, q 9]
    let e : Ending := .cancelled .driveReset
    (s .streaming).Ready ∧ (s .streaming).JobsSound ∧ ((s .streaming).port 1).state ∉ [.retensioning, .offline]
    ∧ (s .streaming).portJobs 1 = [q 8] ++ tapeJob .streaming :: [q 9] ∧ (tapeJob .streaming).state ≠ .queued
    ∧ (∀ x ∈ [q 8] ++ [q 9], x.state = .queued ∧ x.id ∉ (s .streaming).waits ∧ (s .streaming).channelOf x.id = none)
    ∧ (∀ r ∈ (({ (s .streaming).taken .console with ports := (s .streaming).ports.set 1 ((s .streaming).port 1).resetDone } : State).allLeft
        [q 8] e).input, ¬r.key.OfBand (tapeJob .streaming))
    ∧ (∃ r ∈ (tapeStream 0 0 .capturing).input, r.key.OfBand (tapeJob .streaming))
    ∧ (s .closing).portJobs 1 = [q 8] ++ tapeJob .closing :: [q 9]
    ∧ (s .awaitingChannel).portJobs 1 = [q 8] ++ tapeJob .awaitingChannel :: [q 9] := by
  simp only [ready_iff, jobsSound_iff]; decide +kernel

def diskGeometry : GeometryWord := ⟨100, 2, 32, 224⟩
def diskField : MediumField := ⟨3, 1, 2, 7, 3, 0, 1⟩

/-- Every field at the end of its range, for a floppy; one cylinder more. -/
theorem witness_GeometryLimits :
    badGeometryField .floppy diskGeometry diskField = none
    ∧ badGeometryField .floppy { diskGeometry with cylinders := 101 } diskField = some .cylinders
    ∧ badGeometryField .floppy { diskGeometry with firstId := 225 } diskField = some .firstSectorId
    ∧ badGeometryField .cartridge ⟨1024, 48, 32, 224⟩ ⟨2, 2, 3, 0, 0, 1, 2⟩ = none
    ∧ badGeometryField .cartridge ⟨1024, 48, 32, 224⟩ ⟨3, 2, 3, 0, 0, 1, 2⟩ = some .sizeCode := by decide

theorem witness_MountDefinesMedium :
    lab.Ready ∧ diskField.drive.toNat = (0 : Fin 4).val ∧ diskField.level.toNat ≤ 3 ∧ diskField.kind = 1 ∧ (4 : BitVec 6) ≠ 0
    ∧ (31 : BitVec 6).toNat < 32 ∧ lab.volume 31 = .unused ∧ lab.link.level .transfer ≤ diskField.level.toNat
    ∧ badGeometryField (kindOfNumber diskField.kind.toNat) diskGeometry diskField = none
    ∧ (lab.port 0).state ≠ .offline ∧ (lab.port 0).kind = kindOfNumber diskField.kind.toNat
    ∧ lab.presentHandle 0 = some 1
    ∧ (∀ h ∈ handles, (withPort base 0 (floppyAt .idle)).presentOn 0 h = false) ∧ ((withPort base 0 (floppyAt .idle)).port 0).ready = true
    ∧ ((withPort base 0 { floppyAt .idle with ready := false }).port 0).ready = false := by
  simp only [ready_iff]; decide +kernel

theorem witness_MountRefusals :
    lab.Ready ∧ (32 : BitVec 6).toNat = 32 ∧ (1 : BitVec 6).toNat < 32 ∧ lab.volume 1 ≠ .unused ∧ lab.volume 31 = .unused
    ∧ ({ diskField with level := 0 } : MediumField).level.toNat < lab.link.level .transfer
    ∧ badGeometryField .floppy { diskGeometry with heads := 3 } diskField = some .heads
    ∧ ((base.port 0).state = .offline ∨ (base.port 0).kind ≠ kindOfNumber diskField.kind.toNat) := by
  simp only [ready_iff]; decide +kernel

theorem witness_AliasDefinesView :
    let f : ViewField := ⟨2, 20, 80, 3⟩
    lab.Ready ∧ f.limit ≠ 0 ∧ f.limit.toNat ≤ 1024 ∧ f.level.toNat ≤ 3 ∧ lab.volume 31 = .unused ∧ lab.volume 3 ≠ .unused
    ∧ (0 : Nat) < lab.link.level .transfer ∧ lab.link.level .console ≤ f.level.toNat
    ∧ lab.chainEntry 0 5 = .error ⟨.notDefined, 5⟩
    ∧ lab.chainEntry 0 3 = .ok (.view ⟨2, 10, 20, 3⟩)
    ∧ lab.chainEntry 0 2 = .ok (.medium tape)
    ∧ f.offset.toNat + f.limit.toNat ≤ tape.geometry.cylinders ∧ tape.geometry.cylinders < f.offset.toNat + (81 : BitVec 11).toNat := by
  simp only [ready_iff, ok_iff, err_iff]; decide +kernel

theorem witness_ConfirmUnmountDescribe :
    lab.Ready
    ∧ lab.chainEntry 0 3 = .ok (.view ⟨2, 10, 20, 3⟩)
    ∧ (∃ j ∈ (withJobs lab [{ tapeJob .queued with viaHandle := some 3 }]).jobs, j.viaHandle = some 3)
    ∧ (∀ j ∈ lab.jobs, j.viaHandle ≠ some 3)
    ∧ lab.chainEntry 0 2 = .ok (.medium tape)
    ∧ (lab.setVolume 4 (.medium tape)).presentHandle tape.drive = some 2
    ∧ lab.presentHandle tape.drive = some 2 ∧ (lab.setVolume 2 (.medium { tape with present := false })).presentHandle tape.drive = none
    ∧ (lab.port tape.drive).ready = true ∧ ((withPort lab 1 { tapeAt .idle with ready := false }).port tape.drive).ready = false
    ∧ 0 < lab.viewsOf 2 ∧ (lab.setVolume 3 .unused).viewsOf 2 = 0 ∧ lab.entriesOf 2 = 0 ∧ lab.jobsOf 2 = 0 := by
  simp only [ready_iff, ok_iff]; decide +kernel

theorem witness_CheckChainSteps :
    lab.volume 31 = .unused ∧ lab.volume 2 ≠ .unused ∧ (lab.volume 2).level < 3 ∧ 2 ≤ (lab.volume 2).level
    ∧ (lab.setVolume 3 (.view ⟨0, 0, 1, 3⟩)).chainEntry 0 3 = .ok (.view ⟨0, 0, 1, 3⟩)
    ∧ (lab.setVolume 3 (.view ⟨32, 0, 1, 3⟩)).chainEntry 0 3 = .ok (.view ⟨32, 0, 1, 3⟩)
    ∧ (lab.setVolume 3 (.view ⟨31, 0, 1, 3⟩)).chainEntry 0 3 = .ok (.view ⟨31, 0, 1, 3⟩)
    ∧ lab.medium 31 = none ∧ lab.medium 2 = some tape ∧ tape.level < 3 ∧ 2 ≤ tape.level
    ∧ tape.geometry.cylinders ≤ 100 ∧ tape.geometry.heads ≤ 4 ∧ 99 < tape.geometry.cylinders ∧ 3 < tape.geometry.heads
    ∧ tape.geometry.firstId + tape.geometry.sectors ≤ 16 ∧ 15 < tape.geometry.firstId + tape.geometry.sectors
    ∧ tape.present = true ∧ ({ tape with present := false } : Medium).present = false := by
  simp only [ok_iff]; decide +kernel

/-- A band and a key whose chain fails before their geometry is tested, at it, and at the medium's presence; and ones that pass. -/
theorem witness_CheckChainSteps_composed :
    let r (cylinder sector : Nat) : Resolved := ⟨2, tape, cylinder, 1, sector, none⟩
    lab.chainEntry 0 0 = .error ⟨.nullHandle, 0⟩
    ∧ lab.chainResolve 0 3 20 1 0 true = .error ⟨.bandRange, 3⟩
    ∧ lab.chainResolve 0 2 100 1 0 true = .ok (r 100 0) ∧ (r 100 0).checkBand = .error ⟨.bandRange, 2⟩
    ∧ lab.chainResolve 0 2 99 1 0 true = .ok (r 99 0) ∧ (r 99 0).checkBand = .ok (r 99 0)
    ∧ lab.chainResolve 0 2 99 1 15 true = .ok (r 99 15) := by
  simp only [ok_iff, err_iff]; decide +kernel

theorem witness_CheckChainRefuses :
    lab.Ready ∧ malformed (.readBand ⟨2, 100, 0⟩) = false
    ∧ lab.chainReadBand 0 ⟨2, 100, 0⟩ = .error ⟨.bandRange, 2⟩
    ∧ lab.chainBand 0 ⟨3, 20, 0⟩ = .error ⟨.bandRange, 3⟩
    ∧ lab.chainKey 0 ⟨2, 99, 3, 16⟩ = .error ⟨.bandRange, 2⟩
    ∧ lab.chainVolume 3 3 = .error ⟨.level, 2⟩
    ∧ lab.chainEntry 0 0 = .error ⟨.nullHandle, 0⟩ := by
  simp only [ready_iff, err_iff]; decide +kernel

def goodAttributes : AttributeField := ⟨15, 4, 7, true, true, false, false, true⟩
def goodMatch : MatchField := ⟨0, 0, 7, 1008, 47, false⟩

theorem witness_SlotCommands :
    base.Ready ∧ (9 : BitVec 8).toNat = (9 : Fin 10).val ∧ (0 : BitVec 8).toNat = (0 : Fin 10).val
    ∧ (9 : BitVec 8).toNat < 10 ∧ 47 < ({ goodMatch with head := 48 } : MatchField).head.toNat ∧ goodMatch.head.toNat ≤ 47
    ∧ ({ goodAttributes with passLimit := 0 } : AttributeField).passLimit.toNat = 0
    ∧ 4 < ({ goodAttributes with quorum := 5 } : AttributeField).quorum.toNat ∧ ({ goodAttributes with quorum := 0 } : AttributeField).quorum.toNat = 0
    ∧ (1 ≤ goodAttributes.passLimit.toNat ∧ goodAttributes.passLimit.toNat ≤ 15)
    ∧ (1 ≤ goodAttributes.quorum.toNat ∧ goodAttributes.quorum.toNat ≤ 4) := by
  simp only [ready_iff]; decide

theorem witness_SetDefaultsWritesDefault :
    base.Ready ∧ ({ goodAttributes with passLimit := 0 } : AttributeField).passLimit.toNat = 0
    ∧ 4 < ({ goodAttributes with quorum := 5 } : AttributeField).quorum.toNat ∧ ({ goodAttributes with quorum := 0 } : AttributeField).quorum.toNat = 0
    ∧ (1 ≤ goodAttributes.passLimit.toNat ∧ goodAttributes.passLimit.toNat ≤ 15)
    ∧ (1 ≤ goodAttributes.quorum.toNat ∧ goodAttributes.quorum.toNat ≤ 4) := by
  simp only [ready_iff]; decide

theorem witness_ReadAndProbeProfile :
    let p : Profile := ⟨matchOf goodMatch, attributesOf goodAttributes⟩
    let t : ProfileTable := { base.profiles with slots := base.profiles.slots.set 9 (some p) }
    lab.Ready ∧ t.slots[(9 : Fin 10)] = some p ∧ t.slots[(0 : Fin 10)] = none
    ∧ lab.chainBand 0 ⟨3, 5, 1⟩ = .ok ⟨2, tape, 15, 1, 0, some ⟨3, 10, 20⟩⟩
    ∧ lab.profiles.search 0 15 1 = (10, Attributes.reset) := by
  simp only [ready_iff, ok_iff]; decide +kernel

theorem witness_GoverningProfile :
    let p : Profile := ⟨{ matchOf goodMatch with anyHead := true }, attributesOf goodAttributes⟩
    let t : ProfileTable := { base.profiles with slots := base.profiles.slots.set 0 (some p) }
    [8, 9] ++ (0 : Fin 10) :: [1, 2, 3, 4, 5, 6, 7] = [8, 9, 0, 1, 2, 3, 4, 5, 6, 7]
    ∧ t.slots[(0 : Fin 10)] = some p ∧ p.matching.passes 5 15 1 = true ∧ (∀ k ∈ [8, 9], t.slots[(k : Fin 10)] = none)
    ∧ ∀ i : Fin 10, base.profiles.slots[i] = none := by decide +kernel

theorem witness_ReadBandOpensJob :
    let r : Resolved := ⟨2, tape, 15, 1, 0, some ⟨3, 10, 20⟩⟩
    lab.Ready ∧ lab.JobsSound ∧ lab.chainReadBand 0 ⟨3, 5, 1⟩ = .ok r
    ∧ lab.jobs.length < 8 ∧ lab.bandJob 2 15 1 = none
    ∧ ((List.range 16).map fun i => (⟨2, 15, 1, i⟩ : Key)).countP (fun k => (lab.entry k).isNone) = 16 ∧ 16 ≤ 1024 - lab.entries.length
    ∧ lab.profiles.search 0 15 1 = (10, Attributes.reset)
    ∧ ((withPort lab 1 (tapeAt .parking)).port 1).state ∉ [.idle, .onBand]
    ∧ (∃ j ∈ (withJobs lab [tapeJob .closing]).jobs, j.drive = 1 ∧ j.state ≠ .queued)
    ∧ ((lab.port 1).state = .idle ∧ (lab.port 1).motor = false ∧ (lab.port 1).retensionDue = false) := by
  simp only [ready_iff, jobsSound_iff, ok_iff]; decide +kernel

theorem witness_ReadBandRefusals :
    let full := withJobs lab ((List.range 8).map fun i => { tapeJob .queued with id := i, cylinder := i })
    let r : Resolved := ⟨2, tape, 5, 1, 0, none⟩
    full.Ready ∧ 8 ≤ full.jobs.length ∧ full.chainReadBand 0 ⟨2, 5, 1⟩ = .ok r
    ∧ (withJobs lab [tapeJob .queued]).bandJob 2 5 1 = some (tapeJob .queued)
    ∧ (let crowded : State := { lab with entries := (List.range 1020).map fun i => Entry.fresh ⟨1, i / 18, i / 9 % 2, i % 9⟩ 2 2 }
       crowded.Ready ∧ 1024 - crowded.entries.length
         < ((List.range 16).map fun i => (⟨2, 5, 1, i⟩ : Key)).countP (fun k => (crowded.entry k).isNone)) := by
  simp only [ready_iff, ok_iff]; decide +kernel

theorem witness_JobOpenEntries :
    [Key.mk 2 5 1 3, ⟨2, 5, 1, 4⟩].Nodup ∧ (⟨2, 5, 1, 5⟩ : Key) ∉ [Key.mk 2 5 1 3, ⟨2, 5, 1, 4⟩]
    ∧ lab.entry ⟨2, 5, 1, 3⟩ = none ∧ (withEntry lab (entryAt .exhausted [])).entry ⟨2, 5, 1, 3⟩ = some (entryAt .exhausted [])
    ∧ (let e : Entry := { entryAt .tentative [cand 5 1 true] with best := some 0 }
       e.state = .tentative ∧ e.best = some 0 ∧ e.candidates[0]? = some (cand 5 1 true) ∧ (1 : Nat) ≤ (cand 5 1 true).agree
       ∧ (cand 5 1 true).agree < 2)
    ∧ (255 : Nat) < 256 ∧ ([0, 1] : List Nat).length ≤ 8 := by decide +kernel

theorem witness_CancelJob :
    let waiting := withJobs (withPort lab 1 (tapeAt .onBand)) [tapeJob .awaitingChannel]
    let queued := withJobs lab [tapeJob .closing, { tapeJob .queued with id := 1, cylinder := 6 }]
    base.Ready ∧ base.job 0 = none
    ∧ waiting.Ready ∧ waiting.job 0 = some (tapeJob .awaitingChannel) ∧ (tapeJob .awaitingChannel).level < waiting.link.level .transfer
    ∧ waiting.JobsSound ∧ (tapeJob .awaitingChannel).ending = none ∧ (tapeJob .closing).state = .closing
    ∧ queued.Ready ∧ queued.JobsSound ∧ queued.job 1 = some { tapeJob .queued with id := 1, cylinder := 6 } ∧ queued.channelOf 1 = none
    ∧ (queued.activeJob 1).isSome = true := by
  simp only [ready_iff, jobsSound_iff]; decide +kernel

theorem witness_CancelJob_draining :
    let s := withJobs (withPort lab 1 (tapeAt .onBand)) [{ tapeJob .streaming with phase := .draining }]
    s.Ready ∧ s.JobsSound ∧ s.TableSound ∧ s.job 0 = some { tapeJob .streaming with phase := .draining } := by
  simp only [ready_iff, jobsSound_iff, tableSound_iff]; decide +kernel

/-- A job that awaits a channel while it holds one, and one that positions, each with park after job on. -/
theorem witness_CancelJob_parks :
    let j (st : JobState) : Job := { tapeJob st with attributes := { Attributes.reset with park := true } }
    (let s : State := { withJobs (withPort lab 1 (tapeAt .onBand)) [j .awaitingChannel] with channelA := granted 0 1 .held tapePass, waits := [0] }
     s.Ready ∧ s.JobsSound ∧ s.job 0 = some (j .awaitingChannel) ∧ (j .awaitingChannel).ending = none ∧ s.channelOf 0 = some .a
     ∧ (s.channel .a).receipt = none ∧ (j .awaitingChannel).state ∈ [.streaming, .awaitingChannel] ∧ (s.port 1).state ∈ [.idle, .onBand])
    ∧ (let s := withJobs (withPort lab 1 (tapeAt .positioning)) [j .positioning]
       s.Ready ∧ s.JobsSound ∧ s.job 0 = some (j .positioning) ∧ (s.port 1).state = .positioning
       ∧ (j .positioning).state ∈ [.positioning, .reseating]) := by
  simp only [ready_iff, jobsSound_iff]; decide +kernel

theorem witness_CancelJob_streaming :
    let streaming := tapeStream 3 0 .capturing
    (inReceipt streaming true).Ready ∧ (inReceipt streaming true).JobsSound ∧ streaming.TableSound
    ∧ (inReceipt streaming true).channelOf 0 = some .a ∧ ((inReceipt streaming true).channel .a).receipt = some ⟨.one, 3, 2, 1, true⟩
    ∧ (streaming.channel .a).receipt = none ∧ (streaming.channel .a).owner = some 0 ∧ (streaming.port 1).state = .streaming
    ∧ streaming.waits = [] ∧ (∃ r ∈ streaming.input, r.key.handle = 2 ∧ r.key.cylinder = 5 ∧ r.key.head = 1) := by
  simp only [ready_iff, jobsSound_iff, tableSound_iff]; decide +kernel

theorem witness_HoldJob :
    let s := withJobs lab [tapeJob .closing, { tapeJob .queued with id := 1 }, { tapeJob .queued with id := 2, holdRemaining := 3 }]
    s.Ready ∧ (1 : BitVec 5).toNat < 2 ∧ 16 < (17 : BitVec 5).toNat ∧ 2 ≤ (2 : BitVec 5).toNat ∧ (16 : BitVec 5).toNat ≤ 16
    ∧ s.job 9 = none ∧ (tapeJob .queued).level < s.link.level .transfer ∧ s.job 0 = some (tapeJob .closing)
    ∧ s.job 1 = some { tapeJob .queued with id := 1 } ∧ s.job 2 = some { tapeJob .queued with id := 2, holdRemaining := 3 } := by
  simp only [ready_iff]; decide +kernel

/-- The key that the record commands' witnesses name, through the medium itself. -/
def key3 : KeyField := ⟨2, 5, 1, 3⟩
def key3Resolved : Resolved := ⟨2, tape, 5, 1, 3, none⟩

theorem witness_key3 : lab.chainKey 0 key3 = .ok key3Resolved ∧ lab.Ready := by
  simp only [ready_iff, ok_iff]; decide +kernel

theorem witness_LookupAndFind :
    (2 : BitVec 8).toNat ≤ 2 ∧ lab.entry key3Resolved.key = none
    ∧ (withEntry lab (entryAt .weak [])).entry key3Resolved.key = some (entryAt .weak [])
    ∧ (0x3FF : Word) ≠ 0 ∧ (0x3FF : Word).extractLsb' 10 22 = 0
    ∧ (withEntry lab (entryAt .weak [])).entries = [] ++ entryAt .weak [] :: []
    ∧ (entryAt .weak []).key.before key3Resolved.key = false ∧ (0x3FF : Word).getLsbD (entryAt .weak []).state.number = true := by decide +kernel

theorem witness_FetchOpensTransfer :
    let e : Entry := { entryAt .tentative [cand 5 1 true] with best := some 0 }
    lab.entry key3Resolved.key = none ∧ (withEntry lab e).entry key3Resolved.key = some e
    ∧ (entryAt .weak [cand 5 1 false]).best = none ∧ e.candidates.length ≤ (3 : BitVec 8).toNat ∧ (3 : BitVec 8) ≠ 4
    ∧ e.best = some 0 ∧ (0 : BitVec 8).toNat = 0 ∧ e.candidates[0]? = some (cand 5 1 true)
    ∧ (withEntry lab e).transfer = none ∧ ({ withEntry lab e with transfer := some inbound } : State).transfer = some inbound := by decide +kernel

theorem witness_ChooseAmendsEntry :
    let e : Entry := entryAt .disputed [cand 5 1 true, cand 6 1 true]
    (withEntry lab e).entry key3Resolved.key = some e ∧ e.pinned = false ∧ ({ e with pinned := true } : Entry).pinned = true
    ∧ (entryAt .settled []).state ∉ [.disputed, .tentative, .weak, .exhausted] ∧ e.state ∈ [.disputed, .tentative, .weak, .exhausted]
    ∧ e.candidates.length ≤ (2 : BitVec 8).toNat ∧ e.candidates[(1 : BitVec 8).toNat]? = some (cand 6 1 true) := by decide +kernel

theorem witness_AmendOpensTransfer :
    let e : Entry := entryAt .missing []
    (withEntry lab e).entry key3Resolved.key = some e ∧ e.pinned = false ∧ key3Resolved.medium.kind ≠ .floppy
    ∧ 65535 < (65536 : Word).toNat ∧ disk.kind = .floppy ∧ (65535 : Word).toNat ≤ 65535
    ∧ (withEntry lab e).transfer = none ∧ ({ withEntry lab e with pool := [] } : State).pool = []
    ∧ (withEntry lab e).pool = 4 :: (withEntry lab e).pool.tail := by decide +kernel

theorem witness_RetireCommands :
    let e : Entry := entryAt .settled [cand 5 1 true]
    let s := withEntry lab e
    s.Ready ∧ s.TableSound ∧ s.entry key3Resolved.key = some e ∧ e.pinned = false ∧ s.bandJob 2 5 1 = none
    ∧ (withJobs s [tapeJob .queued]).bandJob 2 5 1 = some (tapeJob .queued)
    ∧ s.chainBand 0 ⟨2, 5, 1⟩ = .ok ⟨2, tape, 5, 1, 0, none⟩
    ∧ s.chainVolume 0 3 = .ok ⟨2, tape, 10, 0, 0, some ⟨3, 10, 20⟩⟩
    ∧ (s.jobs.find? fun j => j.handle == 2) = none ∧ (1 : BitVec 8).toNat ≤ 1 := by
  simp only [ready_iff, tableSound_iff, ok_iff]; decide +kernel

theorem witness_SynthesizeStarts :
    let e : Entry := entryAt .exhausted [cand 5 1 false, cand 6 1 false, cand 7 1 false]
    let s := withEntry lab e
    s.Ready ∧ s.entry key3Resolved.key = some e ∧ s.bandJob 2 5 1 = none ∧ e.pinned = false ∧ e.state ∈ [.weak, .exhausted]
    ∧ (entryAt .settled []).state ∉ [.weak, .exhausted] ∧ (entryAt .weak [cand 5 1 false, cand 6 1 false]).readCount < 3 ∧ 3 ≤ e.readCount
    ∧ s.synth.commandRequests < 4 ∧ s.synth.inputs = none ∧ s.synth.wait = [] ∧ s.pool = 4 :: s.pool.tail
    ∧ 4 ≤ ({ s.synth with wait := List.replicate 4 ⟨⟨2, 5, 1, 4⟩, .command .console 0 none⟩ } : Synth).commandRequests
    ∧ ({ s.synth with wait := [⟨⟨2, 5, 1, 4⟩, .close 0⟩] } : Synth).wait ≠ [] := by
  simp only [ready_iff]; decide +kernel

theorem witness_AbortAndSetLevel :
    base.Ready ∧ base.transfer = none ∧ outbound.level < base.link.level .transfer ∧ base.link.level .console ≤ outbound.level
    ∧ outbound.direction = .outbound ∧ inbound.direction = .inbound ∧ (3 : BitVec 3).toNat ≤ 3 := by
  simp only [ready_iff]; decide

theorem witness_StatusAnswers :
    let s := withJobs lab [tapeJob .queued]
    s.Ready ∧ (3 : BitVec 8).toNat = (3 : Fin 4).val ∧ s.job (0 : BitVec 8).toNat = some (tapeJob .queued) ∧ s.job (255 : BitVec 8).toNat = none := by
  simp only [ready_iff]; decide

theorem witness_ClearFlagsClears : base.Ready ∧ (63 : BitVec 6) ≠ 0 := by
  simp only [ready_iff]; decide

/-- RESTART at a ready intake, and at the head of a console list behind a full response queue of which 2 places have come free. -/
theorem witness_RestartClearsWork :
    ((tapeStream 3 0 .capturing).Ready ∧ (tapeStream 3 0 .capturing).JobsSound)
    ∧ (let s : State := { lab with link := { lab.link with
          console := ⟨[1], [HostCommand.restart.record 5, ⟨0, 0, 0, 0⟩]⟩, transfer := ⟨[], [⟨0, 0, 0, 0⟩]⟩, reserved := 30 } }
       s.JobsSound ∧ s.link.console.records = HostCommand.restart.record 5 :: [⟨0, 0, 0, 0⟩] ∧ s.link.preference = .console
       ∧ 2 ≤ s.link.freePlaces) := by
  simp only [ready_iff, jobsSound_iff]; decide

theorem witness_ReadyReports :
    (base.port 0).state = .offline ∧ (lab.port 0).state ≠ .offline ∧ (lab.port 0).state ≠ .positioning
    ∧ (let p := (withPort lab 0 { floppyAt .positioning with motion := .seeking }).port 0
       p.state = .positioning ∧ p.kind = .floppy ∧ p.motion ≠ .still)
    ∧ (let p := (withPort lab 0 { floppyAt .positioning with settleTimer := some 15, stepped := true }).port 0
       p.state = .positioning ∧ p.settleTimer ≠ none ∧ p.stepped = true)
    ∧ (let p := (withPort lab 1 { tapeAt .positioning with positioned := false }).port 1
       p.state = .positioning ∧ p.kind = .cartridge ∧ p.positioned = false) := by decide

theorem witness_MediaChangeAtPort :
    (base.port 0).state = .offline ∧ (lab.port 1).state ≠ .offline ∧ lab.JobsSound ∧ lab.activeJob 1 = none
    ∧ (∀ st ∈ [JobState.positioning, .awaitingChannel, .streaming, .reseating, .retensionWait, .closing],
        (withJobs lab [tapeJob st]).activeJob 1 = some (tapeJob st))
    ∧ (let s := inReceipt (tapeStream 3 0 .capturing) true
       s.JobsSound ∧ (s.port 1).state ≠ .offline ∧ s.activeJob 1 = some { tapeJob .streaming with holdRemaining := 3 }
       ∧ s.channelOf 0 = some .a ∧ (s.channel .a).receipt = some ⟨.one, 3, 2, 1, true⟩)
    ∧ (let s := withJobs (withPort lab 1 (tapeAt .retensioning)) [tapeJob .retensionWait]
       s.JobsSound ∧ s.activeJob 1 = some (tapeJob .retensionWait) ∧ (s.port 1).state = .retensioning) := by
  simp only [jobsSound_iff]; decide +kernel

theorem witness_CaptureMarks :
    (let s := diskStream .verified 0 .index .armed
     s.streamChannel 0 = some .a ∧ (s.channel .a).parameters = some (diskPass .index) ∧ (s.port 0).state = .streaming
     ∧ (s.port 0).kind = .floppy ∧ (s.channel .a).state = .armed ∧ (s.channel .a).indexesSeen = 0)
    ∧ (let s := diskStream .verified 0 .first .armed
       s.streamChannel 0 = some .a ∧ (s.channel .a).parameters = some (diskPass .first) ∧ (s.channel .a).indexesSeen = 0)
    ∧ (let s := tapeStream 0 0 .armed
       s.streamChannel 1 = some .a ∧ (s.channel .a).parameters = some tapePass ∧ (s.port 1).state = .streaming ∧ tapePass.kind = (s.port 1).kind
       ∧ (s.channel .a).state = .armed ∧ (s.channel .a).receipt = none) := by decide

/-- Marks outside STREAMING, at a port of the other kind, at a stream that no channel sees, and a band start mark within a capture. -/
theorem witness_CaptureMarks_discarded :
    ((withPort lab 0 (floppyAt .onBand)).port 0).state ≠ .streaming ∧ ((withPort lab 1 (tapeAt .idle)).port 1).state ≠ .streaming
    ∧ ((withPort lab 1 (tapeAt .streaming)).port 1).kind ≠ .floppy ∧ ((withPort lab 0 (floppyAt .streaming)).port 0).kind ≠ .cartridge
    ∧ (∀ p ∈ [(0 : Fin 4), 1], (withPort (withPort lab 0 (floppyAt .streaming)) 1 (tapeAt .streaming)).streamChannel p = none
        ∧ ((withPort (withPort lab 0 (floppyAt .streaming)) 1 (tapeAt .streaming)).port p).state = .streaming)
    ∧ (let s := tapeStream 0 0 .capturing
       s.streamChannel 1 = some .a ∧ (s.channel .a).parameters = some tapePass ∧ (s.port 1).state = .streaming
       ∧ (s.channel .a).state = .capturing) := by decide

theorem witness_PassEndsHeld :
    (let s := tapeStream 2 0 .capturing
     s.streamChannel 1 = some .a ∧ (s.channel .a).owner = some 0 ∧ s.job 0 = some { tapeJob .streaming with holdRemaining := 2 } ∧ s.JobsSound
     ∧ s.TableSound ∧ (s.channel .a).receipt = none ∧ (s.port 1).state = .streaming ∧ (s.port 1).kind = .cartridge)
    ∧ (let s := diskStream .verified 2 .index .capturing
       s.streamChannel 0 = some .a ∧ s.job 1 = some { diskJob .streaming with verification := .verified, holdRemaining := 2 } ∧ s.JobsSound
       ∧ s.TableSound ∧ (s.channel .a).state = .capturing)
    ∧ (let s := { diskStream .verified 0 .first .capturing with
                  channelA := { granted 1 0 .capturing (diskPass .first) with indexesSeen := 1 } }
       s.streamChannel 0 = some .a ∧ (s.channel .a).indexesSeen = 1 ∧ s.JobsSound ∧ s.TableSound) := by
  simp only [jobsSound_iff, tableSound_iff]; decide +kernel

/-- The start id met again. -/
theorem witness_PassEndsHeld_startId :
    let s := { diskStream .verified 0 .first .capturing with
                  channelA := { granted 1 0 .capturing (diskPass .first) with startId := some 9 } }
    s.streamChannel 0 = some .a ∧ (s.channel .a).state = .capturing ∧ (diskPass .first).startRule = .first
    ∧ (s.channel .a).startId = some 9 ∧ (s.channel .a).receipt = none ∧ (s.port 0).kind = .floppy ∧ s.JobsSound ∧ s.TableSound := by
  simp only [jobsSound_iff, tableSound_iff]; decide +kernel

/-- A capture end that meets a sector in receipt, of either start rule. -/
theorem witness_PassEndsHeld_receipt :
    (let s := inReceipt (diskStream .verified 0 .index .capturing) true
     (s.channel .a).receipt = some ⟨.one, 3, 2, 1, true⟩ ∧ (s.port 0).kind = .floppy ∧ (diskPass .index).startRule = .index
     ∧ (s.channel .a).state = .capturing ∧ s.JobsSound ∧ s.TableSound)
    ∧ (let s := inReceipt { diskStream .verified 0 .first .capturing with
                              channelA := { granted 1 0 .capturing (diskPass .first) with indexesSeen := 1 } } true
       (s.channel .a).receipt = some ⟨.one, 3, 2, 1, true⟩ ∧ (s.channel .a).indexesSeen = 1) := by
  simp only [jobsSound_iff, tableSound_iff]; decide +kernel

/-- A band end mark in a data field, with and without a pending cancel. -/
theorem witness_PassEndsHeld_cut :
    let s := inReceipt (tapeStream 2 0 .capturing) true
    (s.channel .a).receipt = some ⟨.one, 3, 2, 1, true⟩ ∧ (s.port 1).kind = .cartridge ∧ (s.channel .a).state = .capturing
    ∧ (s.channel .a).endPending ≠ some .cancel ∧ s.JobsSound ∧ s.TableSound
    ∧ ({ s.channel .a with endPending := some .cancel } : Channel).endPending = some .cancel := by
  simp only [jobsSound_iff, tableSound_iff]; decide +kernel

/-! The terms of the statements about passes: for each clause a state that meets its hypotheses. -/

theorem witness_EndsPass :
    1 < ({ tapeJob .streaming with holdRemaining := 2 } : Job).holdRemaining ∧ (tapeJob .streaming).holdRemaining ≤ 1
    ∧ (tapeStream 0 0 .capturing).waits = []
    ∧ (let u := ({ withJobs (withPort lab 0 (floppyAt .onBand)) [tapeJob .streaming, diskJob .awaitingChannel] with waits := [1] } : State)
       u.waits = (diskJob .awaitingChannel).id :: [] ∧ (tapeJob .streaming).id ∉ u.waits ∧ u.job 1 = some (diskJob .awaitingChannel)
       ∧ u.medium 1 = some disk) := by decide

/-- A floppy port and a cartridge port on the band, and a cartridge port whose retension is due. -/
theorem witness_StartsPass :
    (let u := withPort lab 0 { floppyAt .onBand with atStart := true }
     (u.port 0).state = .onBand ∧ (u.port 0).atStart = true ∧ (u.port 0).kind ≠ .cartridge ∧ (Channel.reset 0 1).receipt = none)
    ∧ (let u := withPort lab 1 { tapeAt .onBand with atStart := true }
       (u.port 1).kind = .cartridge ∧ (u.port 1).passCount ≠ (u.port 1).retensionInterval)
    ∧ (let u := withPort lab 1 { tapeAt .onBand with atStart := true, passCount := 24 }
       (u.port 1).passCount = (u.port 1).retensionInterval ∧ u.waits = []) := by decide

/-- A FREE channel and two waits: the older one's stream is refused with retension due, and the younger one is granted. -/
theorem witness_Regrants :
    let u : State := { withJobs (withPort (withPort lab 0 { floppyAt .onBand with atStart := true }) 1
                         { tapeAt .onBand with atStart := true, passCount := 24 }) [tapeJob .awaitingChannel, diskJob .awaitingChannel] with
                       waits := [0, 1] }
    let v := ({ u with waits := [1] } : State).turnedBack .a ((u.channel .a).grantedTo (tapeJob .awaitingChannel)) (tapeJob .awaitingChannel)
    (u.job 0 = some (tapeJob .awaitingChannel) ∧ u.medium 2 = some tape ∧ (u.port 1).state = .onBand ∧ (u.port 1).atStart = true
      ∧ (u.port 1).kind = .cartridge ∧ (u.port 1).passCount = (u.port 1).retensionInterval)
    ∧ v.job 1 = some (diskJob .awaitingChannel) ∧ v.medium 1 = some disk ∧ (v.port 0).state = .onBand ∧ (v.port 0).atStart = true
    ∧ (v.port 0).kind ≠ .cartridge := by decide +kernel

/-- No FREE channel; A FREE; B alone FREE; a channel held. -/
theorem witness_AwaitsChannel :
    let busy := granted 8 2 .armed tapePass
    (let u : State := { lab with channelA := busy, channelB := busy }
     u.channelOf 0 = none ∧ u.channelA.state ≠ .free ∧ u.channelB.state ≠ .free)
    ∧ (lab.channelOf 0 = none ∧ lab.medium 2 = some tape ∧ lab.channelA.state = .free)
    ∧ (let u : State := { lab with channelA := busy }
       u.channelOf 0 = none ∧ u.channelA.state ≠ .free ∧ u.channelB.state = .free)
    ∧ ({ lab with channelB := granted 0 1 .held tapePass } : State).channelOf 0 = some .b := by decide +kernel

/-- A close that parks; a host's cancel of a stream that parks; endings that do not. -/
theorem witness_Leaves :
    let j (st : JobState) : Job := { tapeJob st with attributes := { Attributes.reset with park := true } }
    let u := withJobs (withPort lab 1 (tapeAt .onBand)) [j .closing]
    (∀ x ∈ u.jobs, x.drive = 1 → x.id = 0) ∧ (u.port 1).state ∈ [.idle, .onBand] ∧ (j .closing).attributes.park = true
    ∧ (Ending.cancelled .host = .cancelled .host ∧ (j .streaming).state = .streaming)
    ∧ (tapeJob .closing).attributes.park = false ∧ ¬(Ending.failed .wrongBand = .done) := by decide

/-- A channel released with no wait listed, and with one; a job without a channel. -/
theorem witness_Released :
    let u : State := { withJobs (withPort lab 0 (floppyAt .onBand)) [tapeJob .awaitingChannel, diskJob .awaitingChannel] with
      channelA := granted 0 1 .held tapePass, waits := [1] }
    base.waits = [] ∧ base.channelOf 0 = none ∧ u.waits = (diskJob .awaitingChannel).id :: [] ∧ u.job 1 = some (diskJob .awaitingChannel)
    ∧ u.medium 1 = some disk ∧ u.channelOf 0 = some .a ∧ (u.channel .a).receipt = none := by decide +kernel

/-- A port with an active job, one that parks, one without jobs, one that starts its oldest job, and one whose oldest job's medium is out. -/
theorem witness_Offers :
    let later : Job := { tapeJob .queued with id := 1, cylinder := 6 }
    let u := withJobs lab [diskJob .closing, tapeJob .queued, later]
    (∃ j ∈ u.jobs, j.drive = 0 ∧ j.state ≠ .queued) ∧ ((withPort lab 1 (tapeAt .parking)).port 1).state ∉ [.idle, .onBand]
    ∧ (∀ j ∈ u.jobs, j.drive ≠ 2)
    ∧ ((u.port 1).state ∈ [.idle, .onBand] ∧ (∀ x ∈ u.jobs, x.drive = 1 → x.state = .queued)
        ∧ u.jobs = [diskJob .closing] ++ tapeJob .queued :: [later] ∧ (∀ x ∈ [diskJob .closing], x.drive ≠ 1)
        ∧ u.medium 2 = some tape ∧ tape.present = true)
    ∧ (u.setPresent 2 false).medium 2 = some { tape with present := false } := by decide +kernel

/-- A port whose retension is due, one on the band at its start, an IDLE one, and one on the band past its start. -/
theorem witness_Starts :
    let due := (withPort lab 1 { tapeAt .idle with passCount := 24 }).port 1
    let on (start : Bool) := (withPort lab 1 { tapeAt .onBand with band := some ⟨5, 1⟩, atStart := start }).port 1
    (due.kind = .cartridge ∧ due.passCount = due.retensionInterval)
    ∧ ((on true).passCount ≠ (on true).retensionInterval ∧ (on true).state = .onBand
        ∧ (on true).band = some ⟨(tapeJob .queued).cylinder, (tapeJob .queued).head⟩ ∧ (on true).atStart = true)
    ∧ (lab.port 1).state ≠ .onBand ∧ (on false).atStart = false := by decide

/-- A cartridge port; a floppy port with its motor off; one whose motor is up and whose head stands on the cylinder. -/
theorem witness_Positions :
    let up := (withPort lab 0 { floppyAt .idle with motor := true, headCylinder := some 5 }).port 0
    (lab.port 1).kind = .cartridge ∧ (lab.port 0).motor = false
    ∧ up.kind ≠ .cartridge ∧ up.motor = true ∧ up.ready = true ∧ up.spinUp = false
    ∧ up.headCylinder = some (diskJob .queued).cylinder := by decide

/-- Park after job on: a close's end parks, a host's cancel of a positioning parks on arrival; without it the port is offered. -/
theorem witness_Continues :
    let j (st : JobState) : Job := { tapeJob st with attributes := { Attributes.reset with park := true } }
    ((lab.port 1).state ∈ [.idle, .onBand] ∧ (j .closing).attributes.park = true)
    ∧ (((withPort lab 1 (tapeAt .positioning)).port 1).state = .positioning ∧ (j .reseating).state ∈ [.positioning, .reseating])
    ∧ (tapeJob .closing).attributes.park = false := by decide

/-- A job stopped as it waits, in a stream through a channel with readings to take and without a channel, drained, and in its close. -/
theorem witness_Stops :
    (tapeJob .retensionWait).state ∈ [.queued, .positioning, .awaitingChannel, .reseating, .retensionWait]
    ∧ (let u := inReceipt (tapeStream 0 0 .capturing) true
       (tapeJob .streaming).state = .streaming ∧ u.channelOf 0 = some .a ∧ (∃ r ∈ u.input, r.key.OfBand (tapeJob .streaming)))
    ∧ ((withJobs lab [tapeJob .streaming]).channelOf 0 = none ∧ ∀ r ∈ (withJobs lab [tapeJob .streaming]).input, ¬r.key.OfBand (tapeJob .streaming))
    ∧ (tapeJob .closing).state = .closing := by decide +kernel

/-- A band of one WEAK entry: a close that asks, over a pool with frames and an empty one, at an idle unit and behind another request. -/
theorem witness_CloseRuns :
    let e : Entry := entryAt .weak [cand 5 1 false, cand 6 1 false, cand 7 1 false]
    let j := tapeJob .closing
    let u := withEntry (withJobs lab [j]) e
    (j.ending = none ∧ ({ j with attributes := { j.attributes with autoSynthesize := false } } : Job).attributes.autoSynthesize = false)
    ∧ (∀ i ∈ [0, 1, 2], u.asksAt j i = false)
    ∧ (j.attributes.autoSynthesize = true ∧ u.synth.inputs = none ∧ u.synth.wait = [] ∧ ({ u with pool := [] } : State).pool = []
        ∧ (List.range 16).Nodup ∧ (∀ i ∈ List.range 16, u.asksAt j i = decide (i = 3)) ∧ u.entry (j.keyOf 3) = some e ∧ 3 ≤ e.readCount)
    ∧ (List.range 16 = [0, 1, 2] ++ 3 :: (List.range 12).map (· + 4) ∧ u.medium 2 = some tape ∧ u.pool = 4 :: u.pool.tail)
    ∧ ({ u.synth with wait := [⟨⟨2, 9, 1, 4⟩, .command .console 0 none⟩] } : Synth).wait ≠ [] := by decide +kernel

theorem witness_Closes :
    (withJobs lab [tapeJob .streaming]).channelOf 0 = none
    ∧ (let u : State := { withJobs lab [tapeJob .streaming] with channelA := granted 0 1 .held tapePass }
       u.channelOf 0 = some .a ∧ (u.channel .a).receipt = none ∧ (tapeJob .streaming).id ∉ u.waits)
    ∧ (tapeJob .streaming).id ∉ ({ withJobs lab [tapeJob .streaming, diskJob .awaitingChannel] with waits := [1] } : State).waits := by
  decide +kernel

/-- A band whose entries are closed; passes used up; an open entry before a reseat on either kind and before a wait. -/
theorem witness_Judged :
    let j := tapeJob .streaming
    let u := withEntry (withJobs lab [j]) (entryAt .settled [])
    let one : Geometry := ⟨80, 2, 1, 3, 2, .mfm, .k500⟩
    (∀ i, one.firstId ≤ i → i < one.firstId + one.sectors → ∃ e, u.entry (j.keyOf i) = some e ∧ e.state ∈ [.settled, .synthesized, .amended, .disputed])
    ∧ j.attributes.passLimit ≤ ({ j with passesRun := 3 } : Job).passesRun
    ∧ (u.entry (j.keyOf 4) = none ∧ tape.geometry.firstId ≤ 4 ∧ 4 < tape.geometry.firstId + tape.geometry.sectors
        ∧ j.passesRun < j.attributes.passLimit ∧ (u.port 1).kind = .cartridge)
    ∧ (let k : Job := { diskJob .streaming with attributes := { Attributes.reset with reseat := true } }
       k.attributes.reseat = true ∧ ((withPort lab 0 { floppyAt .onBand with headCylinder := some 5 }).port 0).headCylinder = some k.cylinder)
    ∧ ((lab.port 0).kind ≠ .cartridge ∧ (diskJob .streaming).attributes.reseat = false) := by
  refine ⟨fun i h1 h2 => ⟨entryAt .settled [], ?_⟩, ?_⟩
  · obtain rfl : i = 3 := by
      have h1' : 3 ≤ i := h1
      have h2' : i < 3 + 1 := h2
      omega
    decide +kernel
  · decide +kernel

/-- A job that captures, one with a reading left, one whose ending is decided, and one whose pass is drained. -/
theorem witness_GoesOn :
    let u := withJobs lab [{ tapeJob .streaming with phase := .draining }]
    (tapeJob .streaming).phase = .capturing ∧ (tapeStream 0 0 .capturing).input = [waitingReading] ∧ waitingReading.key.OfBand (tapeJob .streaming)
    ∧ (∀ r ∈ u.input, ¬r.key.OfBand (tapeJob .streaming)) ∧ (tapeJob .streaming).ending = none
    ∧ ({ tapeJob .streaming with ending := some (.cancelled .host) } : Job).ending = some (.cancelled .host) ∧ u.medium 2 = some tape := by
  decide +kernel

theorem witness_PositioningProceeds :
    (lab.port 1).kind = .cartridge ∧ (lab.port 0).kind = .floppy ∧ (lab.port 0).motor = false ∧ (lab.port 0).headCylinder = none
    ∧ (let p (c : Nat) : Port := { floppyAt .onBand with motor := true, headCylinder := some c }
       (p 5).kind = .floppy ∧ (p 5).motor = true ∧ (p 5).headCylinder = some 5 ∧ (p 4).headCylinder = some 4 ∧ 4 < 5 ∧ 5 < 6)
    ∧ (let p (m : Motion) := (withPort lab 0 { floppyAt .positioning with
                                band := some ⟨5, 0⟩, motion := m, stepTimer := some 3, settleTimer := some 15, headCylinder := some 4 }).port 0
       (p .recalibrating).state = .positioning ∧ (p .recalibrating).band = some ⟨5, 0⟩ ∧ (p .recalibrating).motion = .recalibrating
       ∧ (p .recalibrating).stepTimer = some 3 ∧ (p .recalibrating).settleTimer = some 15 ∧ (p .seeking).headCylinder = some 4 ∧ 4 < 5)
    ∧ (let p := (withPort lab 1 { tapeAt .positioning with band := some ⟨5, 0⟩, ready := false }).port 1
       p.state = .positioning ∧ p.band = some ⟨5, 0⟩ ∧ p.kind = .cartridge ∧ p.ready = false) := by decide

/-- Late positioned and track-0 reports: at a FAULTED and an IDLE port, at a port of the other kind, and at a floppy that seeks. -/
theorem witness_PositioningProceeds_late :
    (∀ st ∈ [PortState.faulted, .idle], ((withPort lab 1 (tapeAt st)).port 1).state ≠ .positioning
      ∧ ((withPort lab 0 (floppyAt st)).port 0).state ∉ [.positioning, .parking])
    ∧ ((withPort lab 0 (floppyAt .positioning)).port 0).kind ≠ .cartridge ∧ ((withPort lab 1 (tapeAt .parking)).port 1).kind ≠ .floppy
    ∧ (let p := (withPort lab 0 { floppyAt .positioning with motion := .seeking }).port 0
       p.state = .positioning ∧ p.motion ≠ .recalibrating) := by decide

/-- Late start and retension-complete reports: at an IDLE and a FAULTED port, and at a port of the other kind. -/
theorem witness_ParkAndRetensionEnd_late :
    (∀ st ∈ [PortState.faulted, .idle], ((withPort lab 1 (tapeAt st)).port 1).state ∉ [.parking, .retensioning])
    ∧ ((withPort lab 0 (floppyAt .parking)).port 0).kind ≠ .cartridge := by decide

/-- A recalibration whose track-0 report finds the band at cylinder 0, with the settle timer running, and with the drive not ready; a settle
timer that runs out while the head moves, before the drive is ready, and while spin-up is pending. -/
theorem witness_PositioningProceeds_zero :
    let p (m : Motion) (ready spinUp : Bool) : Port := (withPort lab 0 { floppyAt .positioning with
      band := some ⟨0, 0⟩, motion := m, stepped := true, settleTimer := some 15, ready := ready, spinUp := spinUp }).port 0
    ((p .recalibrating true false).state = .positioning ∧ (p .recalibrating true false).band = some ⟨0, 0⟩
      ∧ (p .recalibrating true false).kind = .floppy ∧ (p .recalibrating true false).motion = .recalibrating
      ∧ (p .recalibrating true false).settleTimer ≠ none ∧ (p .recalibrating true false).stepped = true)
    ∧ (p .recalibrating false false).ready = false
    ∧ ((p .seeking true false).settleTimer = some 15 ∧ (p .seeking true false).motion ≠ .still)
    ∧ (p .still false false).ready = false ∧ (p .still true true).spinUp = true := by decide

/-- The track-0 report that ends a positioning for cylinder 0. -/
theorem witness_PositioningEnds_zero :
    let s := withJobs (withPort lab 0 { floppyAt .positioning with band := some ⟨0, 0⟩, motion := .recalibrating, stepped := true, motor := true })
      [{ diskJob .positioning with cylinder := 0, head := 0 }]
    (s.port 0).state = .positioning ∧ (s.port 0).band = some ⟨0, 0⟩ ∧ s.JobsSound ∧ (s.port 0).kind = .floppy
    ∧ (s.port 0).motion = .recalibrating ∧ (s.port 0).ready = true ∧ (s.port 0).spinUp = false ∧ (s.port 0).settleTimer = none
    ∧ (s.activeJob 0).isSome = true := by
  simp only [jobsSound_iff]; decide +kernel

theorem witness_PositioningEnds :
    (let s := (withJobs (withPort lab 0 { floppyAt .positioning with
        band := some ⟨5, 1⟩, settleTimer := some 15, stepped := true, headCylinder := some 5, motor := true }) [diskJob .positioning])
     (s.port 0).state = .positioning ∧ s.activeJob 0 = some (diskJob .positioning) ∧ s.JobsSound
     ∧ (s.port 0).settleTimer ≠ none ∧ (s.port 0).ready = true ∧ (s.port 0).motion = .still
     ∧ (s.port 0).parkOnArrival = false ∧ (s.port 0).headCylinder = some 5)
    ∧ (let s := (withJobs (withPort lab 0 { floppyAt .positioning with
          band := some ⟨5, 1⟩, ready := false, spinUp := true, headCylinder := some 5, motor := true }) [diskJob .positioning])
       (s.port 0).settleTimer = none ∧ s.activeJob 0 = some (diskJob .positioning) ∧ s.JobsSound)
    ∧ (let s := (withJobs (withPort lab 1 { tapeAt .positioning with band := some ⟨5, 1⟩, positioned := true }) [tapeJob .reseating])
       (s.port 1).kind = .cartridge ∧ (s.port 1).ready = true ∧ (s.port 1).positioned = true ∧ s.activeJob 1 = some (tapeJob .reseating)
       ∧ s.JobsSound) := by
  simp only [jobsSound_iff]; decide +kernel

theorem witness_PositioningEnds_parks :
    let s := (withJobs (withPort lab 1 { tapeAt .positioning with band := some ⟨5, 1⟩, parkOnArrival := true }) [tapeJob .queued])
    (s.port 1).state = .positioning ∧ (s.port 1).band = some ⟨5, 1⟩ ∧ (s.port 1).parkOnArrival = true ∧ s.activeJob 1 = none
    ∧ s.JobsSound := by
  simp only [jobsSound_iff]; decide +kernel

theorem witness_ParkAndRetensionEnd :
    (let s := withJobs (withPort lab 0 { floppyAt .parking with motor := true }) [diskJob .queued]
     s.JobsSound ∧ (s.port 0).state = .parking ∧ (s.port 0).kind = .floppy)
    ∧ (withPort lab 0 { floppyAt .parking with stepTimer := some 3 }).port 0 = { floppyAt .parking with stepTimer := some 3 }
    ∧ (let p := (withPort lab 0 { floppyAt .idle with settleTimer := some 15 }).port 0
       p.state ≠ .positioning ∧ p.settleTimer = some 15)
    ∧ (let s := withJobs (withPort lab 1 (tapeAt .parking)) [tapeJob .queued]
       s.JobsSound ∧ (s.port 1).state = .parking ∧ (s.port 1).kind = .cartridge)
    ∧ (let s := withJobs (withPort lab 1 (tapeAt .retensioning)) [tapeJob .retensionWait]
       s.JobsSound ∧ (s.port 1).state = .retensioning ∧ (s.port 1).kind = .cartridge ∧ s.activeJob 1 = some (tapeJob .retensionWait)
       ∧ s.medium 2 = some tape)
    ∧ (withJobs (withPort lab 1 (tapeAt .retensioning)) [tapeJob .queued]).activeJob 1 = none := by
  simp only [jobsSound_iff]; decide +kernel

theorem witness_OvertimeFaults :
    ((withPort lab 1 { tapeAt .parking with overtimeTimer := some 10000 }).port 1).overtimeTimer = some 10000 ∧ lab.JobsSound
    ∧ (let s := withJobs (withPort lab 0 { floppyAt .positioning with overtimeTimer := some 10000 }) [diskJob .positioning]
       s.JobsSound ∧ (s.port 0).state = .positioning ∧ s.activeJob 0 = some (diskJob .positioning) ∧ (diskJob .positioning).ending = none
       ∧ s.channelOf 1 = none)
    ∧ (let s := withJobs (withPort lab 1 { tapeAt .retensioning with retensionWatchdog := some 240000 }) [tapeJob .retensionWait]
       s.JobsSound ∧ (s.port 1).state = .retensioning ∧ (s.port 1).kind = .cartridge ∧ s.activeJob 1 = some (tapeJob .retensionWait)
       ∧ s.channelOf 0 = none) := by
  simp only [jobsSound_iff]; decide +kernel

/-- A reseat that holds a channel; a positioning whose job is gone; a retension that no job waits for. -/
theorem witness_OvertimeFaults_other :
    let moving : State := withPort lab 1 { tapeAt .positioning with overtimeTimer := some 10000 }
    (let j : Job := { tapeJob .reseating with holdRemaining := 2 }
     let s : State := { withJobs moving [j] with channelB := granted 0 1 .held tapePass }
     s.JobsSound ∧ (s.port 1).state = .positioning ∧ (s.port 1).overtimeTimer = some 10000 ∧ s.activeJob 1 = some j ∧ j.state = .reseating
     ∧ s.channelOf 0 = some .b ∧ (s.channel .b).receipt = none)
    ∧ (let s := withJobs moving [tapeJob .queued]
       s.JobsSound ∧ (s.port 1).state = .positioning ∧ s.activeJob 1 = none)
    ∧ (let s := withJobs (withPort lab 1 { tapeAt .retensioning with retensionWatchdog := some 240000 }) [tapeJob .queued]
       s.JobsSound ∧ (s.port 1).state = .retensioning ∧ (s.port 1).retensionWatchdog = some 240000 ∧ s.activeJob 1 = none) := by
  simp only [jobsSound_iff]; decide +kernel

/-- A first and a second fault; with readings left to take, with none, with another wait listed, and with an ending decided before. -/
theorem witness_WatchdogFaults :
    (let s := tapeStream 0 0 .capturing
     (s.port 1).state = .streaming ∧ (s.port 1).streamWatchdog = some 2000 ∧ s.activeJob 1 = some (tapeJob .streaming)
     ∧ s.channelOf 0 = some .a ∧ (tapeJob .streaming).id ∉ s.waits ∧ s.JobsSound ∧ s.TableSound ∧ (tapeJob .streaming).consecutiveFaults = 0
     ∧ (∃ r ∈ s.input, r.key.OfBand (tapeJob .streaming)))
    ∧ (tapeStream 0 1 .capturing).activeJob 1 = some { tapeJob .streaming with consecutiveFaults := 1 }
    ∧ (∀ r ∈ ({ tapeStream 0 0 .armed with input := [] } : State).input, ¬r.key.OfBand (tapeJob .streaming))
    ∧ (let s : State := { withJobs (withPort lab 1 { tapeAt .streaming with streamWatchdog := some 2000 })
                            [{ tapeJob .streaming with ending := some (.cancelled .host) }, diskJob .awaitingChannel] with
                          channelA := granted 0 1 .capturing tapePass, waits := [1] }
       s.activeJob 1 = some { tapeJob .streaming with ending := some (.cancelled .host) } ∧ s.channelOf 0 = some .a ∧ (0 : Nat) ∉ s.waits
       ∧ s.JobsSound ∧ s.TableSound) := by
  simp only [jobsSound_iff, tableSound_iff]; decide +kernel

theorem witness_GoodHeaderJudged :
    (let s := diskStream .verified 0 .index .capturing
     s.streamChannel 0 = some .a ∧ (s.channel .a).receipt = none ∧ (s.channel .a).state = .capturing ∧ (s.channel .a).startId ≠ some 1
     ∧ (s.channel .a).owner = some 1 ∧ s.job 1 = some { diskJob .streaming with verification := .verified } ∧ s.JobsSound
     ∧ s.medium 1 = some disk ∧ (s.channel .a).headersTaken < 40 ∧ (s.channel .a).freePlace = some .one
     ∧ ¬(disk.geometry.firstId ≤ 10 ∧ 10 < disk.geometry.firstId + disk.geometry.sectors)
     ∧ (disk.geometry.firstId ≤ 9 ∧ 9 < disk.geometry.firstId + disk.geometry.sectors) ∧ disk.geometry.sizeCode = 2 ∧ disk.kind ≠ .cartridge)
    ∧ ((diskStream .verified 0 .first .armed).channel .a).firstRule = true
    ∧ ({ granted 1 0 .capturing (diskPass .index) with placeOne := ⟨0, .queued⟩, placeTwo := ⟨1, .queued⟩ } : Channel).freePlace = none := by
  simp only [jobsSound_iff]; decide +kernel

/-- ARMED channels that begin no FIRST capture, one by INDEX and one on a cartridge; bad headers there; and no sector in receipt. -/
theorem witness_passedOver :
    (let s := diskStream .verified 0 .index .armed
     s.streamChannel 0 = some .a ∧ (s.channel .a).state = .armed ∧ (s.channel .a).firstRule = false ∧ (s.channel .a).receipt = none)
    ∧ (let s := tapeStream 0 0 .armed
       s.streamChannel 1 = some .a ∧ (s.channel .a).state = .armed ∧ (s.channel .a).firstRule = false)
    ∧ (let s := tapeStream 0 0 .capturing
       s.streamChannel 1 = some .a ∧ (s.channel .a).receipt = none) := by decide

/-- The header that begins a FIRST capture, and a later one, each before a wrong band's first and second header; no reading waits. -/
theorem witness_WrongBandHeader :
    let s (v : Verification) (st : ChannelState) (startId : Option Nat) : State :=
      { diskStream v 0 .first st with input := [], channelA := { granted 1 0 st (diskPass .first) with startId := startId } }
    let job (v : Verification) : Job := { diskJob .streaming with verification := v }
    (∀ v ∈ [Verification.unverified, .retried],
      (s v .armed none).streamChannel 0 = some .a ∧ ((s v .armed none).channel .a).state = .armed
      ∧ ((s v .armed none).channel .a).firstRule = true ∧ ((s v .armed none).channel .a).receipt = none
      ∧ ((s v .armed none).channel .a).headersTaken < 40
      ∧ (s v .capturing (some 2)).streamChannel 0 = some .a ∧ ((s v .capturing (some 2)).channel .a).state = .capturing
      ∧ ((s v .capturing (some 2)).channel .a).startId ≠ some 1
      ∧ (s v .armed none).job 1 = some (job v) ∧ (s v .armed none).JobsSound ∧ (s v .armed none).TableSound
      ∧ (s v .armed none).medium 1 = some disk ∧ ((s v .armed none).port 0).kind = .floppy ∧ ((s v .armed none).port 0).state = .streaming
      ∧ (job v).drive = 0 ∧ (job v).id ∉ (s v .armed none).waits ∧ (job v).verification = v)
    ∧ disk.kind ≠ .cartridge ∧ ¬((6 : Nat) = 5 ∧ (1 : Nat) = 1) := by
  simp only [jobsSound_iff, tableSound_iff]; decide +kernel

theorem witness_BadHeaderDataMarkAndAbsentField :
    (let s := tapeStream 0 0 .capturing
     s.streamChannel 1 = some .a ∧ (s.channel .a).state = .capturing ∧ (s.channel .a).receipt = none ∧ (s.channel .a).owner = some 0
     ∧ s.job 0 = some (tapeJob .streaming) ∧ s.JobsSound ∧ (s.channel .a).headersTaken < 40)
    ∧ 40 ≤ ({ granted 0 1 .capturing tapePass with headersTaken := 40 } : Channel).headersTaken ∧ lab.streamChannel 1 = none
    ∧ (let s := inReceipt (tapeStream 0 0 .capturing) false
       s.streamChannel 1 = some .a ∧ (s.channel .a).receipt = some ⟨.one, 3, 2, 1, false⟩ ∧ (s.channel .a).endPending = none
       ∧ s.job 0 = some (tapeJob .streaming) ∧ s.JobsSound ∧ (s.channel .a).parameters = some tapePass ∧ (s.port 1).state = .streaming
       ∧ s.headerOnlyCount < 60 ∧ 60 ≤ ({ s with input := List.replicate 60 { waitingReading with data := none } } : State).headerOnlyCount) := by
  simp only [jobsSound_iff]; decide +kernel

/-- An open data field on a tape and on a floppy, with no end pending and with each. -/
theorem witness_openDataField :
    (let s := inReceipt (tapeStream 0 0 .capturing) true
     s.streamChannel 1 = some .a ∧ (s.channel .a).state = .capturing ∧ (s.channel .a).receipt = some ⟨.one, 3, 2, 1, true⟩
     ∧ (s.port 1).kind = .cartridge ∧ (s.port 1).state = .streaming)
    ∧ ∀ e ∈ [none, some EndPending.captureEnd, some .cancel],
        let s := inReceipt { diskStream .verified 0 .first .capturing with
                              channelA := { granted 1 0 .capturing (diskPass .first) with startId := some 9, endPending := e } } true
        s.streamChannel 0 = some .a ∧ (s.channel .a).state = .capturing ∧ (s.channel .a).receipt = some ⟨.one, 3, 2, 1, true⟩
        ∧ (s.channel .a).endPending = e := by decide

/-- A data field found absent by a header on a floppy, under each pending end, and by a mark on a tape. -/
theorem witness_AbsentFieldMet :
    let s := inReceipt (diskStream .verified 0 .index .capturing) false
    let ending (e : Option EndPending) : Channel := { s.channel .a with endPending := e }
    (s.streamChannel 0 = some .a ∧ (s.channel .a).state = .capturing ∧ (s.channel .a).receipt = some ⟨.one, 3, 2, 1, false⟩
      ∧ (s.channel .a).owner = some 1 ∧ s.job 1 = some { diskJob .streaming with verification := .verified } ∧ s.JobsSound ∧ s.TableSound
      ∧ (s.channel .a).parameters = some (diskPass .index) ∧ (s.port 0).state = .streaming ∧ (diskJob .streaming).drive = 0
      ∧ s.headerOnlyCount < 60)
    ∧ (ending none).endPending = none ∧ (ending (some .captureEnd)).endPending = some .captureEnd ∧ (ending (some .cancel)).endPending = some .cancel
    ∧ ((inReceipt (tapeStream 0 0 .capturing) false).port 1).kind = .cartridge
    ∧ 60 ≤ ({ s with input := List.replicate 60 { diskReading with data := none } } : State).headerOnlyCount := by
  simp only [jobsSound_iff, tableSound_iff]; decide +kernel

theorem witness_DataFieldPlacesReading :
    let s := inReceipt (tapeStream 0 0 .capturing) true
    s.streamChannel 1 = some .a ∧ (s.channel .a).receipt = some ⟨.one, 3, 2, 1, true⟩ ∧ (s.channel .a).endPending = none
    ∧ (∀ e : EndPending, ({ s.channel .a with endPending := some e } : Channel).endPending = some e) ∧ s.JobsSound ∧ s.TableSound
    ∧ (s.port (tapeJob .streaming).drive).state = .streaming ∧ s.job 0 = some (tapeJob .streaming) ∧ (s.channel .a).parameters = some tapePass ∧ (List.replicate 512 (0 : Byte)).length = sectorLength 2
    ∧ (s.port (tapeJob .streaming).drive).kind = .cartridge
    ∧ ([3, 515] : List Nat).Pairwise (· < ·) ∧ (∀ o ∈ [3, 515], o ∈ [515, 3, 516] ∧ o < sectorLength 2 + 4)
    ∧ (∀ o ∈ [515, 3, 516], o < sectorLength 2 + 4 → o ∈ [3, 515])
    ∧ ((inReceipt (diskStream .verified 0 .index .capturing) true).port (diskJob .streaming).drive).kind = .floppy := by
  simp only [jobsSound_iff, tableSound_iff]
  refine ⟨by decide +kernel, by decide +kernel, by decide +kernel, fun e => by simp, ?_⟩
  decide +kernel

/-- A reading at an entry: header-only; identical; distinct at a closed, a pinned, an open, a crowded and a full entry. -/
theorem witness_ReadingTaken :
    let s (e : Entry) : State := { withEntry (tapeStream 0 0 .capturing) e with input := [{ waitingReading with data := some ⟨true, 0, .a, .one⟩ }] }
    let four := [{ cand 5 2 false with check := 1 }, { cand 6 1 false with check := 2 }, { cand 7 1 false with check := 3 },
                 { cand 8 3 false with check := 4 }]
    base.input = []
    ∧ (s (entryAt .expected [])).entry ⟨2, 5, 1, 3⟩ = some (entryAt .expected [])
    ∧ (s (entryAt .expected [])).bandJob 2 5 1 = some (tapeJob .streaming) ∧ (s (entryAt .expected [])).JobsSound
    ∧ (s (entryAt .expected [])).TableSound
    ∧ (s (entryAt .weak [cand 5 1 false])).identical (entryAt .weak [cand 5 1 false])
        ((s (entryAt .weak [cand 5 1 false])).frameData 0 2) 0 = some 0
    ∧ (s (entryAt .settled [])).identical (entryAt .settled []) ((s (entryAt .settled [])).frameData 0 2) 0 = none
    ∧ (entryAt .settled []).state.closed = true ∧ (entryAt .expected []).state.closed = false
    ∧ (s (entryAt .expected [])).pool = 4 :: (s (entryAt .expected [])).pool.tail
    ∧ (entryAt .weak four).weakestBad = some 1 ∧ (entryAt .weak four).frameOf 1 = some 6 ∧ 4 ≤ (entryAt .weak four).candidates.length := by
  simp only [jobsSound_iff, tableSound_iff]; decide +kernel

theorem witness_EntryDerivation :
    (entryAt .settled []).state ∈ [.settled, .synthesized, .amended] ∧ (entryAt .weak []).state ∉ [.settled, .synthesized, .amended]
    ∧ 2 ≤ (entryAt .weak [cand 5 1 true, cand 6 1 true]).candidates.countP Candidate.clean
    ∧ (let e := entryAt .weak [cand 5 1 false, cand 6 2 true]
       e.candidates.countP Candidate.clean = 1 ∧ e.candidates[1]? = some (cand 6 2 true) ∧ e.quorum ≤ (cand 6 2 true).agree
       ∧ (cand 6 1 true).agree < e.quorum)
    ∧ (entryAt .weak [cand 5 1 false]).candidates.countP Candidate.clean = 0 := by decide

theorem witness_VoteAtPosition :
    let a : SynthInput := ⟨0, [7], 2, [0]⟩
    let b : SynthInput := ⟨1, [8], 1, []⟩
    0 ∉ b.uncertain ∧ (∀ i ∈ [a], 0 ∈ i.uncertain) ∧ [a, b] = [] ++ a :: [b] ∧ a.bytes = 7 :: []
    ∧ (∀ i : Fin 3, voters ([a, b].map fun x => { x with bytes := x.bytes.drop i.val }) (0 + i.val) = [[b], [⟨0, [], 2, [0]⟩, ⟨1, [], 1, []⟩],
        [⟨0, [], 2, [0]⟩, ⟨1, [], 1, []⟩]].getD i.val []) := by decide

/-- R147: a heavier value wins and the other contests it; of equal weights the oldest wins, and the other ties. -/
theorem test_vote_tallies :
    let a : SynthInput := ⟨0, [7], 2, []⟩
    let b : SynthInput := ⟨1, [8], 1, []⟩
    winner [b, a] = 7 ∧ contestedAt [b, a] = true ∧ tiedAt [b, a] = false
    ∧ winner [{ a with weight := 1 }, b] = 7 ∧ tiedAt [{ a with weight := 1 }, b] = true ∧ contestedAt [a, a] = false := by decide

/-- The inputs of a vote over a floppy sector of four bytes with these recorded check bytes, and a unit that votes on them. -/
def voteData : List Byte := List.replicate 4 0
def voteCheck : List Byte := [(check16 voteData).extractLsb' 8 8, (check16 voteData).extractLsb' 0 8]
def voteInputs (check : List Byte) : List SynthInput := [⟨0, voteData ++ check, 1, []⟩, ⟨1, voteData ++ check, 1, []⟩, ⟨2, voteData ++ check, 1, []⟩]
def voting (s : State) (source : SynthSource) (check : List Byte) : State :=
  { s with synth := { base.synth with
      inHand := some ⟨⟨2, 5, 1, 3⟩, source⟩, workFrame := some 4, inputs := some (voteInputs check), kind := .floppy } }

/-- A wrong and a right check; an entry with room, a full one, and each entry that discards the result. -/
theorem witness_VoteEnds :
    let e : Entry := { entryAt .weak [cand 5 1 false, cand 6 1 false, cand 7 1 false] with size := 0 }
    let full : Entry := { e with candidates := [cand 5 2 false, cand 6 1 false, cand 7 1 false, cand 8 3 false] }
    let s := voting (withEntry lab e) (.command .console 0 none) voteCheck
    base.synth.inHand = none ∧ s.JobsSound ∧ s.TableSound
    ∧ (let v := voteFrom (votePositions (voteInputs [0, 0])) 0 (voteInputs [0, 0])
       dataCheck .floppy (v.bytes.take 4) ≠ checkOfBytes (v.bytes.drop 4))
    ∧ (let v := voteFrom (votePositions (voteInputs voteCheck)) 0 (voteInputs voteCheck)
       dataCheck .floppy (v.bytes.take 4) = checkOfBytes (v.bytes.drop 4))
    ∧ s.entry ⟨2, 5, 1, 3⟩ = some e ∧ s.bandJob 2 5 1 = none ∧ e.pinned = false ∧ e.state ∈ [.weak, .exhausted] ∧ e.candidates.length < 4
    ∧ (full.candidates.length = 4 ∧ full.candidates[1]? = some (cand 6 1 false) ∧ (cand 6 1 false).clean = false
        ∧ ∀ i : Fin 4, ∀ x, full.candidates[i.val]? = some x → x.clean = false → 1 < x.agree ∨ (1 = x.agree ∧ 1 ≤ i.val))
    ∧ lab.entry ⟨2, 5, 1, 3⟩ = none ∧ (withJobs lab [tapeJob .queued]).bandJob 2 5 1 ≠ none ∧ ({ e with pinned := true } : Entry).pinned = true
    ∧ (entryAt .settled []).state ∉ [.weak, .exhausted] ∧ (SynthSource.close 0).isCommand = false := by
  simp only [jobsSound_iff, tableSound_iff]
  refine ⟨by decide, by decide +kernel, by decide +kernel, by decide +kernel, by decide +kernel, by decide +kernel, by decide +kernel,
    by decide, by decide, by decide, ⟨by decide, by decide, by decide, fun i x hx hc => ?_⟩, ?_⟩
  · match i with
    | 0 => simp [cand] at hx; subst hx; decide
    | 1 => simp [cand] at hx; subst hx; decide
    | 2 => simp [cand] at hx; subst hx; decide
    | 3 => simp [cand] at hx; subst hx; decide
  · decide +kernel

/-- A unit that votes beside one candidate, with that check value and a frame that holds what the vote will leave in the work frame, from
the end of the data on. -/
def votingBeside (check : Word) : State :=
  voting ((withEntry lab { entryAt .weak [{ cand 5 1 false with check := check }] with size := 0 }).writeFrame 5 4 voteCheck)
    (.command .console 0 none) voteCheck

/-- The end of a vote beside a candidate it equals in check value and every byte, and beside one of another check value. -/
theorem witness_VoteEnds_alike :
    let alike (check : Word) : Prop :=
      let s := votingBeside check
      let u := s.writeFrame 4 0 (voteFrom (votePositions (voteInputs voteCheck)) 0 (voteInputs voteCheck)).bytes
      s.entry ⟨2, 5, 1, 3⟩ = some { entryAt .weak [{ cand 5 1 false with check := check }] with size := 0 }
      ∧ ∀ i, i < sectorLength 0 → u.memory.read (1024 * 5 + i) = u.memory.read (1024 * 4 + i)
    alike (checkOfBytes voteCheck) ∧ alike 0 ∧ (0 : Word) ≠ checkOfBytes voteCheck := by decide +kernel

/-- R116, R151: a result identical to a candidate makes no new one, its work frame returns, and its request ends as not clean. -/
theorem test_identical_result :
    let s := votingBeside (checkOfBytes voteCheck)
    let t := (s.endVote ⟨⟨2, 5, 1, 3⟩, .command .console 0 none⟩ (voteInputs voteCheck) 4)
    t.1.entries = s.entries ∧ t.1.pool = 4 :: s.pool ∧ t.2 = .notClean (checkOfBytes voteCheck) (checkOfBytes voteCheck) 0 0 := by
  decide +kernel

/-- R40: a CONFIRM of an entry already present is answered DONE, ready or not, with nothing changed. -/
theorem test_confirm_present :
    let s := withPort lab 1 { tapeAt .idle with ready := false }
    s.submit .console 9 (.confirm 2) = s.answered .console (answerOf .console 9 10 .done []) := by decide +kernel

/-- R138, R155: at the RESET line a landing place keeps the frame it took for a candidate's, whose own frame goes to the pool. -/
theorem test_reset_line_frames :
    let t := exchanged.afterResetLine
    t.channelA.placeOne = ⟨4, .free⟩ ∧ t.channelB.placeTwo = ⟨3, .free⟩ ∧ 0 ∈ t.pool ∧ 4 ∉ t.pool ∧ t.pool.length = 2044 ∧ t.entries = [] := by
  decide +kernel

/-- R155: the RESET line keeps the bytes of the buffer. -/
theorem test_reset_line_keeps_bytes :
    (lab.writeFrame 5 4 voteCheck).afterResetLine.memory = (lab.writeFrame 5 4 voteCheck).memory := by rfl

/-- A close that was stopped while its vote ran, and one that goes on, after a vote and for want of a frame. -/
theorem witness_CloseResumes :
    let j : Job := { tapeJob .closing with closeHand := some 3, closeLeft := [4, 5] }
    (withJobs lab [j]).job 0 = some j ∧ j.closeHand = some 3 ∧ j.ending = none ∧ j.keyOf 3 = ⟨2, 5, 1, 3⟩
    ∧ ({ j with ending := some (.failed .mediaGone) } : Job).ending = some (.failed .mediaGone) := by decide +kernel

/-- A unit that votes, one with nothing to do, and one that starts a close's and a SYNTHESIZE's request. -/
theorem witness_Serves :
    let e : Entry := entryAt .weak [cand 5 1 false, cand 6 1 false, cand 7 1 false]
    let k : Key := ⟨2, 5, 1, 3⟩
    let u : State := { withEntry lab e with synth := { base.synth with wait := [⟨k, .command .console 5 none⟩, ⟨k, .close 0⟩] } }
    (voting lab (.close 0) voteCheck).synth.inputs ≠ none ∧ base.synth.wait = []
    ∧ (u.synth.inputs = none ∧ u.entry k = some e ∧ e.pinned = false ∧ 3 ≤ e.readCount ∧ u.pool = 4 :: u.pool.tail
        ∧ e.state = .weak ∧ u.bandJob 2 5 1 = none) := by decide +kernel

/-- A SYNTHESIZE and a close's request that fail each test of R144 they are put to, with another request behind. -/
theorem witness_StartFails :
    let e : Entry := entryAt .weak [cand 5 1 false, cand 6 1 false, cand 7 1 false]
    let k : Key := ⟨2, 5, 1, 3⟩
    let u : State := withEntry lab e
    lab.entry k = none ∧ (withJobs lab [tapeJob .queued]).bandJob 2 5 1 = some (tapeJob .queued)
    ∧ ({ e with pinned := true } : Entry).pinned = true ∧ (entryAt .settled []).state ≠ .weak ∧ (entryAt .settled []).state ≠ .exhausted
    ∧ (entryAt .exhausted []).state ≠ .weak ∧ (entryAt .weak [cand 5 1 false]).readCount < 3
    ∧ (u.entry k = some e ∧ u.bandJob 2 5 1 = none ∧ e.pinned = false ∧ e.state = .weak ∧ 3 ≤ e.readCount ∧ ({ u with pool := [] } : State).pool = [])
    ∧ ({ base.synth with wait := [⟨k, .close 0⟩, ⟨k, .command .console 5 none⟩] } : Synth).wait
        = ⟨k, .close 0⟩ :: [⟨k, .command .console 5 none⟩] := by decide +kernel

/-- The functions of R108's remainder, on one bit. -/
theorem witness_DataCheck :
    let next (r : BitVec 16) (b : Bool) : BitVec 16 := if r.msb != b then (r <<< 1) ^^^ 0x1021#16 else r <<< 1
    next 0xFFFF#16 true = 0xFFFE#16 ∧ next 0xFFFF#16 false = 0xEFDF#16
    ∧ ((digits.flatMap fun b => (List.range 8).map fun i => b.getMsbD i).foldl next 0xFFFF#16) = check16 digits := by decide +kernel

/-! ## Single steps -/

/-- The state a step gives. -/
def after (r : Host.Outcome State Fault Refusal) : State :=
  match r with
  | .next t => t
  | .fault _ | .refused _ => base

/-- R147, R160: the vote's check bytes stand in the work frame behind its data, and the SYNTH candidate keeps that frame. -/
theorem test_vote_check_bytes :
    let e : Entry := { entryAt .weak [cand 5 1 false, cand 6 1 false, cand 7 1 false] with size := 0 }
    let t := after (exec .voteEnd (voting (withEntry lab e) (.command .console 0 none) voteCheck))
    (t.memory.readBlock 4100 2 = voteCheck ∧ voteCheck ≠ [0, 0]) ∧ t.entries.map (fun x => x.candidates.map Candidate.frame) = [[5, 6, 7, 4]] := by
  decide +kernel

/-- R14, R69, R95, R99: a port that reaches its band with channel A FREE streams. -/
theorem test_grant_streams :
    let s := withJobs (withPort lab 1 { tapeAt .positioning with band := some ⟨5, 1⟩ }) [tapeJob .positioning]
    let t := after (exec (.positionedReport 1) s)
    (t.port 1).state = .streaming ∧ (t.port 1).passCount = 1 ∧ t.channelA.owner = some 0 ∧ t.channelA.grants = 1
    ∧ t.channelA.parameters = some tapePass := by decide +kernel

end Sys2Proof.Tests
end

/-! The search for the governing profile: what a match part compares (R47), what one slot answers, and where the search ends (R48). -/

namespace Sys2Proof.Machine

/-! ## A match part against a band (R47) -/

/-- Two numbers agree under a mask exactly when they agree at every digit that the mask selects. -/
theorem and_mask_eq_iff (x y mask : Nat) :
    x &&& mask = y &&& mask ↔ ∀ i, mask.testBit i = true → x.testBit i = y.testBit i := by
  constructor
  · intro h i hi
    simpa [hi] using congrArg (Nat.testBit · i) h
  · intro h
    refine Nat.eq_of_testBit_eq fun i => ?_
    rw [Nat.testBit_and, Nat.testBit_and]
    cases hi : mask.testBit i
    case false => rw [Bool.and_false, Bool.and_false]
    case true => rw [h i hi]

/-- The three tests of R47, each digit by digit. -/
theorem MatchPart.passes_iff (m : MatchPart) (cls cylinder head : Nat) :
    m.passes cls cylinder head = true ↔
      (∀ i, m.classMask.testBit i = true → m.cls.testBit i = cls.testBit i)
        ∧ (∀ i, m.cylinderMask.testBit i = true → m.cylinder.testBit i = cylinder.testBit i)
        ∧ (m.anyHead = true ∨ m.head = head) := by
  rw [← and_mask_eq_iff, ← and_mask_eq_iff]
  simp [MatchPart.passes, and_assoc]

namespace ProfileTable

variable {t : ProfileTable} {cls cylinder head : Nat}

/-! ## One slot -/

/-- A valid slot answers as its match part does. -/
theorem slotPasses_of_valid {i : Fin 10} {p : Profile} (hp : t.slots[i] = some p) :
    t.slotPasses cls cylinder head i = p.matching.passes cls cylinder head := by
  rw [slotPasses, hp, Option.any_some]

/-- A slot is passed over when it is not valid or its match part does not match. -/
theorem slotPasses_eq_false_iff {i : Fin 10} :
    t.slotPasses cls cylinder head i = false ↔ ∀ p, t.slots[i] = some p → p.matching.passes cls cylinder head = false := by
  cases hs : t.slots[i]
  case none => simp [slotPasses, hs]
  case some p => simp [slotPasses_of_valid hs]

/-! ## The search (R48) -/

/-- The search answers with the first slot found in the order, when that slot is valid. -/
theorem search_of_find?_eq_some {i : Fin 10} {p : Profile} (hf : slotOrder.find? (t.slotPasses cls cylinder head) = some i)
    (hp : t.slots[i] = some p) : t.search cls cylinder head = (i.val, p.attributes) := by
  simp only [search, hf, hp]

/-- The search answers DEFAULT when no slot is found. -/
theorem search_of_find?_eq_none (hf : slotOrder.find? (t.slotPasses cls cylinder head) = none) :
    t.search cls cylinder head = (10, t.default) := by
  simp only [search, hf]

/-- A valid slot that matches governs when every slot before it in the order is passed over. -/
theorem search_of_first_match {before after : List (Fin 10)} {i : Fin 10} {p : Profile} (ho : slotOrder = before ++ i :: after)
    (hp : t.slots[i] = some p) (hm : p.matching.passes cls cylinder head = true)
    (hb : ∀ k ∈ before, t.slotPasses cls cylinder head k = false) : t.search cls cylinder head = (i.val, p.attributes) := by
  have hi : t.slotPasses cls cylinder head i = true := (slotPasses_of_valid hp).trans hm
  have hf : slotOrder.find? (t.slotPasses cls cylinder head) = some i :=
    List.find?_eq_some_iff_append.mpr ⟨hi, before, after, ho, fun k hk => by rw [hb k hk, Bool.not_false]⟩
  exact search_of_find?_eq_some hf hp

/-- The default profile governs when every slot is passed over. -/
theorem search_of_no_match (h : ∀ i, t.slotPasses cls cylinder head i = false) :
    t.search cls cylinder head = (10, t.default) :=
  search_of_find?_eq_none (List.find?_eq_none.mpr fun i _ => (Bool.not_eq_true _).mpr (h i))

end ProfileTable

end Sys2Proof.Machine

namespace Sys2Proof

open Machine

/-- Settles O24: the match part digit by digit, then the search at the first slot that matches and with none. -/
theorem governingProfile : Obligations.GoverningProfile := by
  intro t cls cylinder head
  refine ⟨fun m => m.passes_iff cls cylinder head, ?firstMatch, ?noMatch⟩
  case firstMatch =>
    intro before after i p horder hp hm hbefore
    exact ProfileTable.search_of_first_match horder.symm hp hm fun k hk => ProfileTable.slotPasses_eq_false_iff.mpr (hbefore k hk)
  case noMatch =>
    intro hall
    exact ProfileTable.search_of_no_match fun i => ProfileTable.slotPasses_eq_false_iff.mpr (hall i)

end Sys2Proof

/-! Power-on and the RESET line (R200): what both make of every block, and what the RESET line does with the frames (R138, R155). -/

namespace Sys2Proof.Machine

/-! ## The values that both resets share -/

/-- The part stands as after power-on, but for the frames' uses, the buffer memory and the queue of what waits: each landing place is FREE
with the frame it has. -/
structure State.AtReset (t : State) : Prop where
  link : t.link = Link.reset
  ports : t.ports = ⟨Port.reset, Port.reset, Port.reset, Port.reset⟩
  volumes : t.volumes = Vector.replicate 32 .unused
  profiles : t.profiles = ⟨Vector.replicate 10 none, Attributes.reset⟩
  jobs : t.jobs = []
  nextJobId : t.nextJobId = 0
  channel : ∀ c, t.channel c = Channel.reset (t.channel c).placeOne.frame (t.channel c).placeTwo.frame
  waits : t.waits = []
  input : t.input = []
  entries : t.entries = []
  synth : t.synth = Synth.reset
  transfer : t.transfer = none
  closing : t.closing = none

namespace State.AtReset

variable {t : State} (h : t.AtReset)
include h

theorem port_eq (p : Fin 4) : t.port p = Port.reset := by
  unfold State.port
  rw [h.ports]
  fin_cases p <;> rfl

theorem volume_eq (n : Nat) : t.volume n = .unused := by
  unfold State.volume
  split
  case isTrue hlt => simp only [h.volumes, Vector.getElem_replicate]
  case isFalse => rfl

theorem slot_eq (k : Fin 10) : t.profiles.slots[k] = none := by
  rw [h.profiles]
  exact Vector.getElem_replicate k.isLt

/-- With every enable off, the line is deasserted, whatever conditions stand (R197). -/
theorem interrupt_eq : t.interrupt = false := by
  simp [State.interrupt, h.link, Link.reset]

/-- An empty link port takes the first record completed into either list (R200). -/
theorem ready : t.Ready where
  console := by rw [h.link]; rfl
  transfer := by rw [h.link]; rfl
  places := by rw [h.link]; decide

end State.AtReset

theorem reset_atReset : State.reset.AtReset where
  link := rfl
  ports := rfl
  volumes := rfl
  profiles := rfl
  jobs := rfl
  nextJobId := rfl
  channel := by rintro (_ | _) <;> rfl
  waits := rfl
  input := rfl
  entries := rfl
  synth := rfl
  transfer := rfl
  closing := rfl

/-- The queue of what waits is no part of the reset values (log 29). -/
theorem State.AtReset.setPending {t : State} (h : t.AtReset) (is : List Instr) : (t.setPending is).AtReset := { h with }

theorem afterResetLine_channel (s : State) (c : ChannelName) : s.afterResetLine.channel c = (s.channel c).afterResetLine := by
  cases c <;> rfl

/-- The RESET line differs from power-on only in the frames, the bytes and what waits. -/
theorem afterResetLine_atReset (s : State) : s.afterResetLine.AtReset :=
  { reset_atReset with channel := fun c => by rw [afterResetLine_channel]; rfl }

/-! ## The pool -/

theorem reset_pool_length : State.reset.pool.length = 2044 := by
  simp only [State.reset, List.length_drop, List.length_range, Config.frames]

theorem poolLow_of_pool_length {t : State} (h : t.pool.length = 2044) : t.poolLow = false := by
  simp [State.poolLow, h, Config.poolLow]

/-! ## The frames at the RESET line (R138, R155) -/

theorem mem_inboundOf {f : Nat} {x : Option Transfer} :
    f ∈ inboundOf x ↔ ∃ y, x = some y ∧ y.direction = .inbound ∧ y.frame = f := by
  cases x with
  | none => simp [inboundOf]
  | some y => by_cases h : y.direction = .inbound <;> simp [inboundOf, h, eq_comm (a := f)]

theorem mem_framesOut {f : Nat} {s : State} :
    f ∈ s.framesOut ↔ (∃ e ∈ s.entries, ∃ k ∈ e.candidates, k.frame = f)
      ∨ (∃ x, s.transfer = some x ∧ x.direction = .inbound ∧ x.frame = f) ∨ s.synth.workFrame = some f := by
  simp only [State.framesOut, List.mem_append, List.mem_flatMap, List.mem_map, mem_inboundOf, Option.mem_toList, or_assoc]

theorem mem_afterResetLine_pool {f : Nat} {s : State} : f ∈ s.afterResetLine.pool ↔ f ∈ s.pool ∨ f ∈ s.framesOut := by
  rw [afterResetLine_pool, List.mem_append, or_comm]

/-! ## What the two resets answer -/

theorem exec_powerOn (s : State) : exec .powerOn s = .next (State.reset.setPending s.pending) := rfl

theorem exec_resetLine (s : State) : exec .resetLine s = .next s.afterResetLine := rfl

/-- Both resets leave every block at its reset values; the pool holds all frames but the four of the landing places. -/
theorem exec_reset (s : State) : ∀ i ∈ [Instr.powerOn, Instr.resetLine], ∃ t, exec i s = .next t ∧ t.AtReset
    ∧ (i = .powerOn ∨ s.FramesSound → t.pool.length = 2044) ∧ (i = .resetLine → t = s.afterResetLine) := by
  simp only [List.forall_mem_cons]
  refine ⟨?powerOn, ?resetLine, by simp⟩
  case powerOn =>
    refine ⟨_, exec_powerOn s, reset_atReset.setPending _, fun _ => ?poolLength, nofun⟩
    case poolLength => rw [setPending_pool, reset_pool_length]
  case resetLine =>
    refine ⟨_, exec_resetLine s, afterResetLine_atReset s, fun h => ?_, fun _ => rfl⟩
    exact afterResetLine_pool_length s (h.resolve_left nofun)

end Sys2Proof.Machine

namespace Sys2Proof

open Machine

/-- Settles O3: block by block from the values that both resets share, then the pool, and the frames and bytes at the RESET line. -/
theorem resetValues : Obligations.ResetValues := by
  intro s i hi
  obtain ⟨t, ht, hreset, hpool, hline⟩ := exec_reset s i hi
  have hlink := hreset.link
  refine ⟨t, ht, ?queues, ?responses, ?flags, ⟨?level, ?enables, hreset.interrupt_eq, ?preference⟩, ?ports, hreset.volume_eq,
    ⟨hreset.slot_eq, ?defaultProfile⟩, ⟨hreset.jobs, hreset.nextJobId⟩, ?channels, ⟨hreset.waits, hreset.input, hreset.entries⟩,
    ?synth, ⟨hreset.transfer, hreset.closing⟩, ?pool, ?resetLine, hreset.ready⟩
  case queues | responses | flags | level | enables | preference => simp [hlink, Link.reset]
  case ports => intro p; simp [hreset.port_eq p, Port.reset]
  case defaultProfile => rw [hreset.profiles]; rfl
  case channels => intro c; rw [hreset.channel c]; simp [Channel.reset]
  case synth => simp [hreset.synth, Synth.reset]
  case pool => exact fun h => ⟨hpool h, poolLow_of_pool_length (hpool h)⟩
  case resetLine =>
    intro h
    obtain rfl := hline h
    refine ⟨afterResetLine_memory s, fun c => ?frames, fun f => mem_afterResetLine_pool.trans (or_congr_right mem_framesOut)⟩
    case frames => rw [afterResetLine_channel]; exact ⟨rfl, rfl⟩

end Sys2Proof

/-! What every step keeps: the laws of the tables, of the frames and of the link port, stated of the moments inside a step too, when a command
in hand holds a reserved place and a claim in hand holds frames. One lemma for each change of a field of the state. -/

namespace Sys2Proof.Machine

/-! ## The laws with a hand -/

/-- What an operation holds in hand between two changes of the state: reserved places that no job and no request accounts for yet, and
frames that are in no use (R155, R191). -/
structure Hand where
  places : Nat
  frames : Multiset Nat

/-- The frames of a channel's two landing places. -/
def Channel.landing (ch : Channel) : Multiset Nat := {ch.placeOne.frame, ch.placeTwo.frame}

/-- The frames of an entry's candidates. -/
def Entry.heldFrames (e : Entry) : Multiset Nat := ↑(e.candidates.map Candidate.frame)

/-- The frames of all candidates. -/
def tableFrames (l : List Entry) : Multiset Nat := (l.map Entry.heldFrames).sum

/-- Every frame by its use, without an order. -/
def State.uses (s : State) : Multiset Nat :=
  ↑s.pool + (s.channelA.landing + s.channelB.landing) + tableFrames s.entries + ↑(inboundOf s.transfer) + ↑s.synth.workFrame.toList

/-- The laws of the frames with some in hand (R142, R155). -/
structure State.FramesWith (s : State) (f : Multiset Nat) : Prop where
  unit : s.synth.Sound
  uses : s.uses + f = ↑(List.range 2048)

/-- What the link port alone obeys (R187, R191, R192). -/
structure Link.Laws (l : Link) : Prop where
  places : l.responses.length + l.reserved ≤ 32
  console : l.console.records.length ≤ 8 ∧ l.console.assembly.length ≤ 3
  transfer : l.transfer.records.length ≤ 8 ∧ l.transfer.assembly.length ≤ 3
  responses : ∀ r ∈ l.responses, 2 ≤ r.length ∧ r.length ≤ 16
  wordsRead : ∀ r, l.responses.head? = some r → l.wordsRead < r.length
  empty : l.responses = [] → l.wordsRead = 0
  level : l.transferLevel ≤ 3

/-- The laws of the link port with `k` reserved places in hand. -/
structure State.LinkWith (s : State) (k : Nat) : Prop where
  reserved : s.link.reserved = s.jobs.length + s.synth.commandRequests + k
  laws : s.link.Laws

theorem tableFrames_eq (l : List Entry) : tableFrames l = ↑(l.flatMap fun e => e.candidates.map Candidate.frame) := by
  induction l with
  | nil => rfl
  | cons e rest ih =>
    rw [List.flatMap_cons, ← Multiset.coe_add, ← ih]
    exact List.sum_cons

theorem allFrames_eq_uses (s : State) : (↑s.allFrames : Multiset Nat) = s.uses := by
  have hplaces : (↑[s.channelA.placeOne.frame, s.channelA.placeTwo.frame, s.channelB.placeOne.frame, s.channelB.placeTwo.frame] :
      Multiset Nat) = s.channelA.landing + s.channelB.landing := rfl
  simp only [State.allFrames, State.framesOut, State.uses, tableFrames_eq, ← hplaces, Multiset.coe_add, List.append_assoc]

theorem framesSound_iff (s : State) : s.FramesSound ↔ s.FramesWith 0 := by
  constructor
  · intro h
    exact ⟨h.unit, by rw [add_zero, ← allFrames_eq_uses]; exact Multiset.coe_eq_coe.2 h.uses⟩
  · intro h
    have huses := h.uses
    rw [add_zero, ← allFrames_eq_uses] at huses
    exact ⟨h.unit, Multiset.coe_eq_coe.1 huses⟩

theorem linkSound_iff (s : State) : s.LinkSound ↔ s.LinkWith 0 :=
  ⟨fun h => ⟨h.reserved, h.places, h.console, h.transfer, h.responses, h.wordsRead, h.empty, h.level⟩,
   fun ⟨hr, h⟩ => ⟨hr, h.places, h.console, h.transfer, h.responses, h.wordsRead, h.empty, h.level⟩⟩

/-- What one use of frames gives up another one or the hand takes. -/
theorem trade {x y a a' f f' : Multiset Nat} (r : Multiset Nat) (hx : x = r + a') (hy : y = r + a) (h : a' + f' = a + f) : x + f' = y + f := by
  rw [hx, hy, add_assoc, h, add_assoc]

/-- The change from `s`, with `h` in hand, to `t`, with `h'` in hand, keeps the three laws, and the commands and events that wait. -/
structure State.Keeping (h h' : Hand) (s t : State) : Prop where
  tables : s.TablesSound → t.TablesSound
  unit : s.TablesSound → s.synth.Sound → t.synth.Sound
  uses : s.TablesSound → s.synth.Sound → t.uses + h'.frames = s.uses + h.frames
  link : s.TablesSound → s.synth.Sound → s.LinkWith h.places → t.LinkWith h'.places
  pending : t.pending = s.pending

namespace State.Keeping

variable {h h' h'' : Hand} {s t u : State}

theorem refl (s : State) : Keeping h h s s := ⟨id, fun _ => id, fun _ _ => rfl, fun _ _ => id, rfl⟩

theorem trans (a : Keeping h h' s t) (b : Keeping h' h'' t u) : Keeping h h'' s u where
  tables hs := b.tables (a.tables hs)
  unit hs hu := b.unit (a.tables hs) (a.unit hs hu)
  uses hs hu := (b.uses (a.tables hs) (a.unit hs hu)).trans (a.uses hs hu)
  link hs hu hl := b.link (a.tables hs) (a.unit hs hu) (a.link hs hu hl)
  pending := b.pending.trans a.pending

/-- A change may be judged where the laws of the tables hold. -/
theorem of_tables (hp : t.pending = s.pending) (a : s.TablesSound → Keeping h h' s t) : Keeping h h' s t where
  tables hs := (a hs).tables hs
  unit hs := (a hs).unit hs
  uses hs := (a hs).uses hs
  link hs := (a hs).link hs
  pending := hp

/-- Frames lent for the time of the change and given back. -/
theorem lend {k k' : Nat} {f f' : Multiset Nat} (x : Multiset Nat) (a : Keeping ⟨k, f + x⟩ ⟨k', f' + x⟩ s t) : Keeping ⟨k, f⟩ ⟨k', f'⟩ s t where
  tables := a.tables
  unit := a.unit
  uses hs hu := by
    have heq := a.uses hs hu
    dsimp only at heq ⊢
    rw [← add_assoc, ← add_assoc] at heq
    exact add_right_cancel heq
  link := a.link
  pending := a.pending

end State.Keeping

/-! ## What the laws of the tables are about -/

/-- The laws of the tables are about these fields alone. -/
theorem State.TablesSound.of_fields {s t : State} (hs : s.TablesSound) (hm : t.memory.wf = true) (hp : t.PortsSound) (hv : t.volumes = s.volumes)
    (hpr : t.profiles = s.profiles) (hj : t.JobsSound) (he : t.TableSound) : t.TablesSound where
  memory := hm
  ports := hp
  volumes := by
    have hvol : t.volume = s.volume := funext fun n => by unfold State.volume; rw [hv]
    have hmed : t.medium = s.medium := funext fun n => by unfold State.medium; rw [hvol]
    refine ⟨by rw [hvol]; exact hs.volumes.null, fun x hx => ?_, fun p x hx y hy => ?_⟩
    · rw [hvol]
      unfold State.EntrySound
      rw [hmed]
      exact hs.volumes.entries x hx
    · unfold State.presentOn
      rw [hmed]
      exact hs.volumes.present p x hx y hy
  profiles := ⟨by rw [hpr]; exact hs.profiles.default, by rw [hpr]; exact hs.profiles.slots⟩
  jobs := hj
  table := he

theorem State.JobsSound.of_eq {s t : State} (hs : s.JobsSound) (hj : t.jobs = s.jobs) (hn : t.nextJobId = s.nextJobId) : t.JobsSound := by
  obtain ⟨hc, ha, hi, hnx, hf, hl⟩ := hs
  rw [← hj] at hc ha hi hf hl
  rw [← hn] at hnx hf
  exact ⟨hc, ha, hi, hnx, hf, hl⟩

theorem State.TableSound.of_eq {s t : State} (hs : s.TableSound) (he : t.entries = s.entries) : t.TableSound := by
  obtain ⟨hc, ho, hca⟩ := hs
  rw [← he] at hc ho hca
  exact ⟨hc, ho, hca⟩

section changes

variable {h h' : Hand} {s : State}

open State (Keeping)

/-- A change of fields that no law is about. -/
theorem keeping_of_fields {t : State} (hm : t.memory = s.memory) (hp : t.ports = s.ports) (hv : t.volumes = s.volumes)
    (hpr : t.profiles = s.profiles) (hj : t.jobs = s.jobs) (hn : t.nextJobId = s.nextJobId) (he : t.entries = s.entries)
    (hl : t.link = s.link) (hu : t.synth = s.synth) (ha : t.channelA = s.channelA) (hb : t.channelB = s.channelB) (hpool : t.pool = s.pool)
    (ht : t.transfer = s.transfer) (hpe : t.pending = s.pending) : Keeping h h s t where
  tables hs := hs.of_fields (by rw [hm]; exact hs.memory) (by unfold State.PortsSound; rw [hp]; exact hs.ports) hv hpr
    (hs.jobs.of_eq hj hn) (hs.table.of_eq he)
  unit _ hs := by rw [hu]; exact hs
  uses _ _ := by unfold State.uses; rw [hpool, ha, hb, he, ht, hu]
  link _ _ hk := ⟨by rw [hl, hj, hu]; exact hk.reserved, by rw [hl]; exact hk.laws⟩
  pending := hpe

theorem keeping_setWaits (v : List Nat) : Keeping h h s (s.setWaits v) := keeping_of_fields rfl rfl rfl rfl rfl rfl rfl rfl rfl rfl rfl rfl rfl rfl
theorem keeping_setInput (v : List Reading) : Keeping h h s (s.setInput v) :=
  keeping_of_fields rfl rfl rfl rfl rfl rfl rfl rfl rfl rfl rfl rfl rfl rfl
theorem keeping_setClosing (v : Option ClosingRecord) : Keeping h h s (s.setClosing v) :=
  keeping_of_fields rfl rfl rfl rfl rfl rfl rfl rfl rfl rfl rfl rfl rfl rfl

/-! ## The link port -/

theorem tablesSound_setLink {l : Link} (hs : s.TablesSound) : (s.setLink l).TablesSound :=
  hs.of_fields hs.memory hs.ports rfl rfl (hs.jobs.of_eq rfl rfl) (hs.table.of_eq rfl)

/-- A change of the link port alone that accounts for its reserved places. -/
theorem keeping_link {k k' : Nat} {f : Multiset Nat} {l : Link}
    (hl : s.TablesSound → s.link.reserved = s.jobs.length + s.synth.commandRequests + k → s.link.Laws →
      l.reserved = s.jobs.length + s.synth.commandRequests + k' ∧ l.Laws) : Keeping ⟨k, f⟩ ⟨k', f⟩ s (s.setLink l) where
  tables := tablesSound_setLink
  unit _ hu := hu
  uses _ _ := rfl
  link hs _ hk := let ⟨hr, hw⟩ := hl hs hk.reserved hk.laws; ⟨hr, hw⟩
  pending := rfl

theorem keeping_setLink {l : Link} (hr : l.reserved = s.link.reserved) (hl : s.link.Laws → l.Laws) : Keeping h h s (s.setLink l) :=
  keeping_link fun _ hk hw => ⟨hr.trans hk, hl hw⟩

/-- A response of 2 to 16 words posts through a place in hand. -/
theorem keeping_post {k : Nat} {f : Multiset Nat} {r : List Word} (hr : s.TablesSound → 2 ≤ r.length ∧ r.length ≤ 16) :
    Keeping ⟨k + 1, f⟩ ⟨k, f⟩ s (s.post r) := by
  refine keeping_link fun hs hk hw => ⟨?_, ?_, hw.console, hw.transfer, ?_, ?_, ?_, hw.level⟩
  · dsimp only; omega
  · have hplaces := hw.places
    simp only [List.length_append, List.length_singleton]
    omega
  · intro x hx
    rcases List.mem_append.1 hx with hx | hx
    · exact hw.responses x hx
    · rw [List.mem_singleton.1 hx]; exact hr hs
  · intro x hx
    cases hq : s.link.responses with
    | nil =>
      rw [hq] at hx
      cases hx
      have h2 := (hr hs).1
      have h0 := hw.empty hq
      dsimp only
      omega
    | cons y rest =>
      rw [hq] at hx
      exact hw.wordsRead x (by rw [hq]; exact hx)
  · intro hq
    simp at hq

theorem keeping_reserve {k : Nat} {f : Multiset Nat} (hp : 1 ≤ s.link.freePlaces) : Keeping ⟨k, f⟩ ⟨k + 1, f⟩ s s.reserve := by
  refine keeping_link fun _ hk hw => ⟨?_, ?_, hw.console, hw.transfer, hw.responses, hw.wordsRead, hw.empty, hw.level⟩
  · dsimp only; omega
  · unfold Link.freePlaces Config.responsePlaces at hp
    dsimp only
    omega

/-! ## Ports, volumes, profiles, memory -/

theorem portsSound_iff {f : Four Port} : (f.p0.Sound ∧ f.p1.Sound ∧ f.p2.Sound ∧ f.p3.Sound) ↔ ∀ p, (f.get p).Sound := by
  constructor
  · rintro ⟨h0, h1, h2, h3⟩ p
    fin_cases p
    exacts [h0, h1, h2, h3]
  · exact fun hp => ⟨hp 0, hp 1, hp 2, hp 3⟩

theorem keeping_setPorts {v : Four Port} (hv : (∀ p, (s.port p).Sound) → ∀ p, (v.get p).Sound) : Keeping h h s (s.setPorts v) where
  tables hs := hs.of_fields hs.memory (portsSound_iff.2 (hv (portsSound_iff.1 hs.ports))) rfl rfl (hs.jobs.of_eq rfl rfl) (hs.table.of_eq rfl)
  unit _ hu := hu
  uses _ _ := rfl
  link _ _ hk := ⟨hk.reserved, hk.laws⟩
  pending := rfl

theorem keeping_updatePort {p : Fin 4} {g : Port → Port} (hg : (s.port p).Sound → (g (s.port p)).Sound) :
    Keeping h h s (s.updatePort p g) := by
  refine keeping_setPorts fun hp q => ?_
  rw [Four.get_set]
  split
  · exact hg (hp p)
  · exact hp q

theorem keeping_setVolumes {v : Vector VolumeEntry 32} (hv : s.VolumesSound → (s.setVolumes v).VolumesSound) :
    Keeping h h s (s.setVolumes v) where
  tables hs := ⟨hs.memory, hs.ports, hv hs.volumes, ⟨hs.profiles.default, hs.profiles.slots⟩, hs.jobs.of_eq rfl rfl, hs.table.of_eq rfl⟩
  unit _ hu := hu
  uses _ _ := rfl
  link _ _ hk := ⟨hk.reserved, hk.laws⟩
  pending := rfl

theorem keeping_setProfiles {v : ProfileTable} (hv : s.ProfilesSound → (s.setProfiles v).ProfilesSound) :
    Keeping h h s (s.setProfiles v) where
  tables hs := ⟨hs.memory, hs.ports, ⟨hs.volumes.null, hs.volumes.entries, hs.volumes.present⟩, hv hs.profiles, hs.jobs.of_eq rfl rfl,
    hs.table.of_eq rfl⟩
  unit _ hu := hu
  uses _ _ := rfl
  link _ _ hk := ⟨hk.reserved, hk.laws⟩
  pending := rfl

theorem keeping_writeFrame (frame offset : Nat) (bytes : List Byte) : Keeping h h s (s.writeFrame frame offset bytes) where
  tables hs := hs.of_fields (writeFrame_wf s frame offset bytes hs.memory) hs.ports rfl rfl (hs.jobs.of_eq rfl rfl) (hs.table.of_eq rfl)
  unit _ hu := hu
  uses _ _ := rfl
  link _ _ hk := ⟨hk.reserved, hk.laws⟩
  pending := rfl

/-! ## Jobs -/

/-- A change of a job's record that keeps what the law of the job table is about. -/
structure Job.SameSeat (j k : Job) : Prop where
  id : k.id = j.id
  handle : k.handle = j.handle
  cylinder : k.cylinder = j.cylinder
  head : k.head = j.head
  layout : j.layout.length ≤ 40 → k.layout.length ≤ 40

theorem Job.SameSeat.refl (j : Job) : j.SameSeat j := ⟨rfl, rfl, rfl, rfl, fun h => h⟩

theorem Job.SameSeat.trans {i j k : Job} (a : i.SameSeat j) (b : j.SameSeat k) : i.SameSeat k :=
  ⟨b.id.trans a.id, b.handle.trans a.handle, b.cylinder.trans a.cylinder, b.head.trans a.head, b.layout ∘ a.layout⟩

theorem Job.SameSeat.apart {i j i' j' : Job} (a : i.SameSeat i') (b : j.SameSeat j') (h : i.Apart j) : i'.Apart j' := by
  unfold Job.Apart
  rw [a.id, b.id, a.handle, b.handle, a.cylinder, b.cylinder, a.head, b.head]
  exact h

theorem jobsSound_map {g : Job → Job} (hg : ∀ j : Job, j.SameSeat (g j)) (hs : s.JobsSound) : (s.setJobs (s.jobs.map g)).JobsSound where
  count := by rw [setJobs_jobs, List.length_map]; exact hs.count
  apart := List.pairwise_map.2 (hs.apart.imp fun h => (hg _).apart (hg _) h)
  ids := List.forall_mem_map.2 fun j hj => by rw [(hg j).id]; exact hs.ids j hj
  next := hs.next
  fresh := List.forall_mem_map.2 fun j hj => by rw [(hg j).id]; exact hs.fresh j hj
  layouts := List.forall_mem_map.2 fun j hj => (hg j).layout (hs.layouts j hj)

theorem keeping_updateJob {id : Nat} {f : Job → Job} (hf : ∀ j : Job, j.SameSeat (f j)) :
    Keeping h h s (s.updateJob id f) where
  tables hs := hs.of_fields hs.memory hs.ports rfl rfl
    (jobsSound_map (fun j => by split; exacts [hf j, .refl j]) hs.jobs) (hs.table.of_eq rfl)
  unit _ hu := hu
  uses _ _ := rfl
  link _ _ hk := ⟨by rw [show (s.updateJob id f).jobs.length = s.jobs.length from List.length_map ..]; exact hk.reserved, hk.laws⟩
  pending := rfl

/-! ## Channels, the pool and transfers -/

/-- The frames that stand in no landing place of channel `c`. -/
def State.usesBeside (s : State) (c : ChannelName) : Multiset Nat :=
  ↑s.pool + (match c with | .a => s.channelB.landing | .b => s.channelA.landing) + tableFrames s.entries + ↑(inboundOf s.transfer)
    + ↑s.synth.workFrame.toList

/-- A change of a channel whose landing frames the hand accounts for. -/
theorem keeping_setChannel {k : Nat} {f f' : Multiset Nat} {c : ChannelName} {v : Channel} (hv : v.landing + f' = (s.channel c).landing + f) :
    Keeping ⟨k, f⟩ ⟨k, f'⟩ s (s.setChannel c v) where
  tables hs := by cases c <;> exact hs.of_fields hs.memory hs.ports rfl rfl (hs.jobs.of_eq rfl rfl) (hs.table.of_eq rfl)
  unit _ hu := by cases c <;> exact hu
  uses _ _ := by
    have hrest : ∀ w, (s.setChannel c w).uses = s.usesBeside c + w.landing := by
      intro w
      cases c <;> dsimp only [State.uses, State.usesBeside, State.setChannel, State.setChannelA, State.setChannelB] <;> abel
    refine trade (s.usesBeside c) (hrest v) ?_ hv
    have hself := hrest (s.channel c)
    rwa [setChannel_self] at hself
  link _ _ hk := by cases c <;> exact ⟨hk.reserved, hk.laws⟩
  pending := by cases c <;> rfl

theorem keeping_updateChannel {c : ChannelName} {g : Channel → Channel} (hg : ∀ ch, (g ch).landing = ch.landing) :
    Keeping h h s (s.updateChannel c g) := keeping_setChannel (by rw [hg])

theorem keeping_setPool {k : Nat} {f f' : Multiset Nat} {v : List Nat} (hv : (↑v : Multiset Nat) + f' = ↑s.pool + f) :
    Keeping ⟨k, f⟩ ⟨k, f'⟩ s (s.setPool v) where
  tables hs := hs.of_fields hs.memory hs.ports rfl rfl (hs.jobs.of_eq rfl rfl) (hs.table.of_eq rfl)
  unit _ hu := hu
  uses _ _ := by
    refine trade (s.channelA.landing + s.channelB.landing + tableFrames s.entries + ↑(inboundOf s.transfer) + ↑s.synth.workFrame.toList) ?_ ?_ hv
    all_goals dsimp only [State.uses, State.setPool]; abel
  link _ _ hk := ⟨hk.reserved, hk.laws⟩
  pending := rfl

theorem keeping_returnFrame {k : Nat} {f : Multiset Nat} (x : Nat) : Keeping ⟨k, f + {x}⟩ ⟨k, f⟩ s (s.returnFrame x) :=
  keeping_setPool (by rw [← Multiset.cons_coe, ← Multiset.singleton_add]; abel)

theorem keeping_claimFrame {k : Nat} {f : Multiset Nat} {x : Nat} {t : State} (hc : s.claimFrame = some (x, t)) :
    Keeping ⟨k, f⟩ ⟨k, f + {x}⟩ s t := by
  unfold State.claimFrame at hc
  split at hc
  · simp at hc
  · rename_i y rest hp
    cases hc
    exact keeping_setPool (by rw [hp, ← Multiset.cons_coe, ← Multiset.singleton_add]; abel)

theorem keeping_setTransfer {k : Nat} {f f' : Multiset Nat} {v : Option Transfer}
    (hv : (↑(inboundOf v) : Multiset Nat) + f' = ↑(inboundOf s.transfer) + f) : Keeping ⟨k, f⟩ ⟨k, f'⟩ s (s.setTransfer v) where
  tables hs := hs.of_fields hs.memory hs.ports rfl rfl (hs.jobs.of_eq rfl rfl) (hs.table.of_eq rfl)
  unit _ hu := hu
  uses _ _ := by
    refine trade (↑s.pool + (s.channelA.landing + s.channelB.landing) + tableFrames s.entries + ↑s.synth.workFrame.toList) ?_ ?_ hv
    all_goals dsimp only [State.uses, State.setTransfer]; abel
  link _ _ hk := ⟨hk.reserved, hk.laws⟩
  pending := rfl

/-! ## The synthesis unit -/

/-- A change of the synthesis unit whose work frame and whose commands' places the hand accounts for. -/
theorem keeping_setSynth {k k' : Nat} {f f' : Multiset Nat} {u : Synth}
    (hu : s.synth.Sound → u.Sound ∧ (↑u.workFrame.toList : Multiset Nat) + f' = ↑s.synth.workFrame.toList + f
      ∧ u.commandRequests + k' = s.synth.commandRequests + k) : Keeping ⟨k, f⟩ ⟨k', f'⟩ s (s.setSynth u) where
  tables hs := hs.of_fields hs.memory hs.ports rfl rfl (hs.jobs.of_eq rfl rfl) (hs.table.of_eq rfl)
  unit _ hs := (hu hs).1
  uses _ hs := trade _ rfl rfl (hu hs).2.1
  link _ hs hk := by
    obtain ⟨-, -, hcount⟩ := hu hs
    refine ⟨?_, hk.laws⟩
    have := hk.reserved
    show s.link.reserved = s.jobs.length + u.commandRequests + k'
    dsimp only at this
    omega
  pending := rfl

end changes

end Sys2Proof.Machine

/-! What every step keeps, continued: changes of the job table and of the sector reconciliation table. -/

namespace Sys2Proof.Machine

open State (Keeping)

/-! ## The job table -/

section jobs

variable {h : Hand} {s : State} {k : Nat} {f : Multiset Nat}

/-- A job joins the end of the table, and the place for its notice is no longer in hand (R60, R61). -/
theorem keeping_addJob {j : Job} {n : Nat}
    (hj : s.JobsSound → s.jobs.length < 8 ∧ (∀ x ∈ s.jobs, x.Apart j) ∧ j.id < 256 ∧ j.layout.length ≤ 40 ∧ n < 256
      ∧ ∀ x ∈ s.jobs ++ [j], x.id ≠ n) :
    Keeping ⟨k + 1, f⟩ ⟨k, f⟩ s ((s.setJobs (s.jobs ++ [j])).setNextJobId n) where
  tables hs := by
    obtain ⟨hlen, hapart, hid, hlayout, hn, hfresh⟩ := hj hs.jobs
    refine hs.of_fields hs.memory hs.ports rfl rfl ⟨?_, ?_, ?_, hn, hfresh, ?_⟩ (hs.table.of_eq rfl)
    · show (s.jobs ++ [j]).length ≤ 8
      rw [List.length_append, List.length_singleton]
      omega
    · refine List.pairwise_append.2 ⟨hs.jobs.apart, List.pairwise_singleton .., fun x hx y hy => ?_⟩
      rw [List.mem_singleton.1 hy]
      exact hapart x hx
    · exact List.forall_mem_append.2 ⟨hs.jobs.ids, List.forall_mem_singleton.2 hid⟩
    · exact List.forall_mem_append.2 ⟨hs.jobs.layouts, List.forall_mem_singleton.2 hlayout⟩
  unit _ hu := hu
  uses _ _ := rfl
  link _ _ hk := by
    refine ⟨?_, hk.laws⟩
    have hr := hk.reserved
    show s.link.reserved = (s.jobs ++ [j]).length + s.synth.commandRequests + k
    rw [List.length_append, List.length_singleton]
    dsimp only at hr
    omega
  pending := rfl

theorem removeJob_length {l : List Job} (hl : l.Pairwise Job.Apart) {j : Job} (hj : j ∈ l) :
    (l.filter fun x => x.id != j.id).length + 1 = l.length := by
  induction l with
  | nil => simp at hj
  | cons x rest ih =>
    obtain ⟨hx, hrest⟩ := List.pairwise_cons.1 hl
    rcases List.mem_cons.1 hj with rfl | hj
    · have hkeep : rest.filter (fun x => x.id != j.id) = rest :=
        List.filter_eq_self.2 fun y hy => by simpa using (hx y hy).1.symm
      simp [hkeep]
    · have hne : (x.id != j.id) = true := by simpa using (hx j hj).1
      rw [List.filter_cons, if_pos hne, List.length_cons, List.length_cons, ih hrest hj]

/-- A job leaves the table, and the place of its notice is in hand. -/
theorem keeping_removeJob {id : Nat} {j : Job} (hj : s.job id = some j) : Keeping ⟨k, f⟩ ⟨k + 1, f⟩ s (s.removeJob id) := by
  obtain ⟨hmem, rfl⟩ := job_mem hj
  refine ⟨fun hs => ?_, fun _ hu => hu, fun _ _ => rfl, fun hs _ hk => ⟨?_, hk.laws⟩, rfl⟩
  · have hsub : (s.jobs.filter fun x => x.id != j.id).Sublist s.jobs := List.filter_sublist
    refine hs.of_fields hs.memory hs.ports rfl rfl ⟨?_, ?_, ?_, hs.jobs.next, ?_, ?_⟩ (hs.table.of_eq rfl)
    · exact hsub.length_le.trans hs.jobs.count
    · exact hs.jobs.apart.sublist hsub
    · exact fun x hx => hs.jobs.ids x (hsub.mem hx)
    · exact fun x hx => hs.jobs.fresh x (hsub.mem hx)
    · exact fun x hx => hs.jobs.layouts x (hsub.mem hx)
  · have hr := hk.reserved
    have hlen := removeJob_length hs.jobs.apart hmem
    show s.link.reserved = (s.jobs.filter fun x => x.id != j.id).length + s.synth.commandRequests + (k + 1)
    dsimp only at hr
    omega

/-- A record of a body of 1 to 15 words has 2 to 16 words (R204). -/
theorem responseRecord_length (kind : ResponseKind) (q : Queue) (tag : BitVec 8) (code : Nat) (command : BitVec 8) {body : List Word}
    (hb : body.length ≤ 15) :
    2 ≤ (responseRecord kind q tag code command body).length ∧ (responseRecord kind q tag code command body).length ≤ 16 := by
  unfold responseRecord
  cases body with
  | nil => simp
  | cons w rest =>
    simp only [List.isEmpty_cons, Bool.false_eq_true, if_false, List.length_cons] at hb ⊢
    omega

theorem keeping_postNotice (id : Nat) : Keeping h h s (s.postNotice id) := by
  unfold State.postNotice
  split
  · exact .refl s
  · rename_i j hj
    split
    · exact .refl s
    · exact (keeping_removeJob hj).trans (keeping_post fun _ => responseRecord_length .notice _ _ _ _ (by simp [Job.noticeBody]))

/-! ### The next id (R61) -/

theorem nextId_succ (inUse : List Nat) (n id : Nat) :
    nextId inUse (n + 1) id = if inUse.contains ((id + 1) % 256) then nextId inUse n ((id + 1) % 256) else (id + 1) % 256 := rfl

/-- An id that is in use after the search was in use at every step of it. -/
theorem nextId_search (inUse : List Nat) : ∀ n id, nextId inUse (n + 1) id ∈ inUse → ∀ i < n + 1, (id + 1 + i) % 256 ∈ inUse
  | 0, id, h, i, hi => by
    obtain rfl : i = 0 := by omega
    rw [nextId_succ] at h
    split at h
    · rename_i hc; exact List.contains_iff_mem.1 hc
    · exact h
  | n + 1, id, h, i, hi => by
    rw [nextId_succ] at h
    split at h
    · rename_i hc
      cases i with
      | zero => exact List.contains_iff_mem.1 hc
      | succ i =>
        have hlater := nextId_search inUse n _ h i (by omega)
        rwa [show ((id + 1) % 256 + 1 + i) % 256 = (id + 1 + (i + 1)) % 256 by omega] at hlater
    · rename_i hc
      exact absurd (List.contains_iff_mem.2 h) hc

theorem nextId_lt (inUse : List Nat) : ∀ n id, nextId inUse (n + 1) id < 256
  | 0, id => by rw [nextId_succ]; split <;> exact Nat.mod_lt _ (by decide)
  | n + 1, id => by
    rw [nextId_succ]
    split
    · exact nextId_lt inUse n _
    · exact Nat.mod_lt _ (by decide)

/-- One more try than there are ids in use finds a free one. -/
theorem nextId_notMem {inUse : List Nat} {n : Nat} (id : Nat) (hn : inUse.length ≤ n) (h256 : n < 256) : nextId inUse (n + 1) id ∉ inUse := by
  intro hmem
  have hall := nextId_search inUse n id hmem
  have hnodup : ((List.range (n + 1)).map fun i => (id + 1 + i) % 256).Nodup := by
    refine List.nodup_range.map_on fun x hx y hy hxy => ?_
    rw [List.mem_range] at hx hy
    omega
  have hle := (List.subperm_of_subset hnodup (List.forall_mem_map.2 fun i hi => hall i (List.mem_range.1 hi))).length_le
  rw [List.length_map, List.length_range] at hle
  omega

end jobs

/-! ## Key order (R113) -/

theorem before_iff (a b : Key) : a.before b = true ↔ a.handle < b.handle ∨ (a.handle = b.handle ∧ (a.cylinder < b.cylinder
    ∨ (a.cylinder = b.cylinder ∧ (a.head < b.head ∨ (a.head = b.head ∧ a.sector < b.sector))))) := by
  simp [Key.before]

theorem before_trans {a b c : Key} (hab : a.before b = true) (hbc : b.before c = true) : a.before c = true := by
  rw [before_iff] at *
  omega

theorem before_or_before {a b : Key} (h : a ≠ b) : a.before b = true ∨ b.before a = true := by
  rw [before_iff, before_iff]
  by_contra hnot
  refine h ?_
  cases a; cases b
  simp only [Key.mk.injEq]
  dsimp only at hnot
  omega

theorem insertEntry_perm (e : Entry) (l : List Entry) : (insertEntry e l).Perm (e :: l) := by
  induction l with
  | nil => exact .refl _
  | cons x rest ih =>
    unfold insertEntry
    split
    · exact .refl _
    · exact (ih.cons x).trans (.swap e x rest)

theorem insertEntry_order {e : Entry} {l : List Entry} (hl : l.Pairwise fun a b => a.key.before b.key = true) (hne : ∀ x ∈ l, x.key ≠ e.key) :
    (insertEntry e l).Pairwise fun a b => a.key.before b.key = true := by
  induction l with
  | nil => exact List.pairwise_singleton ..
  | cons x rest ih =>
    obtain ⟨hx, hrest⟩ := List.pairwise_cons.1 hl
    unfold insertEntry
    split
    · rename_i hlt
      refine List.pairwise_cons.2 ⟨fun y hy => ?_, hl⟩
      rcases List.mem_cons.1 hy with rfl | hy
      · exact hlt
      · exact before_trans hlt (hx y hy)
    · rename_i hge
      refine List.pairwise_cons.2 ⟨fun y hy => ?_, ih hrest fun y hy => hne y (List.mem_cons_of_mem _ hy)⟩
      rcases List.mem_cons.1 ((insertEntry_perm e rest).mem_iff.1 hy) with rfl | hy
      · exact (before_or_before (hne x List.mem_cons_self)).resolve_right hge
      · exact hx y hy

/-! ## The sector reconciliation table -/

section entries

variable {h : Hand} {s : State} {n : Nat} {f f' : Multiset Nat}

theorem tableFrames_perm {l l' : List Entry} (hl : l.Perm l') : tableFrames l = tableFrames l' := (hl.map _).sum_eq

theorem tableFrames_append (l l' : List Entry) : tableFrames (l ++ l') = tableFrames l + tableFrames l' := by
  unfold tableFrames
  rw [List.map_append, List.sum_append]

theorem tableFrames_cons (e : Entry) (l : List Entry) : tableFrames (e :: l) = e.heldFrames + tableFrames l := List.sum_cons

/-- A change of the table whose candidates' frames the hand accounts for. -/
theorem keeping_setEntries {v : List Entry}
    (hv : s.TableSound → (s.setEntries v).TableSound ∧ tableFrames v + f' = tableFrames s.entries + f) :
    Keeping ⟨n, f⟩ ⟨n, f'⟩ s (s.setEntries v) where
  tables hs := hs.of_fields hs.memory hs.ports rfl rfl (hs.jobs.of_eq rfl rfl) (hv hs.table).1
  unit _ hu := hu
  uses hs _ := by
    refine trade (↑s.pool + (s.channelA.landing + s.channelB.landing) + ↑(inboundOf s.transfer) + ↑s.synth.workFrame.toList) ?_ ?_ (hv hs.table).2
    all_goals dsimp only [State.uses, State.setEntries]; abel
  link _ _ hk := ⟨hk.reserved, hk.laws⟩
  pending := rfl

theorem candidates_length (e : Entry) : e.candidates.length = Multiset.card e.heldFrames := by
  unfold Entry.heldFrames
  rw [Multiset.coe_card, List.length_map]

/-- The table with its entries changed in place, each key kept and no list longer than 4. -/
theorem tableSound_map {g : Entry → Entry} (hs : s.TableSound) (hkey : ∀ x ∈ s.entries, (g x).key = x.key)
    (hlen : ∀ x ∈ s.entries, (g x).candidates.length ≤ 4) : (s.setEntries (s.entries.map g)).TableSound where
  count := by rw [setEntries_entries, List.length_map]; exact hs.count
  order := List.pairwise_map.2 (hs.order.imp_of_mem fun ha hb h => by rw [hkey _ ha, hkey _ hb]; exact h)
  candidates := List.forall_mem_map.2 hlen

/-- A change of one entry that keeps its candidates' frames. -/
theorem keeping_updateEntry_same {k : Key} {g : Entry → Entry} (hg : ∀ e, (g e).key = e.key ∧ (g e).heldFrames = e.heldFrames) :
    Keeping h h s (s.updateEntry k g) := by
  have hkey : ∀ x : Entry, (if x.key == k then g x else x).key = x.key := fun x => by split; exacts [(hg x).1, rfl]
  have hheld : ∀ x : Entry, (if x.key == k then g x else x).heldFrames = x.heldFrames := fun x => by split; exacts [(hg x).2, rfl]
  refine keeping_setEntries fun hs => ⟨tableSound_map hs (fun x _ => hkey x) fun x hx => ?_, ?_⟩
  · rw [candidates_length, hheld x, ← candidates_length]
    exact hs.candidates x hx
  · congr 1
    unfold tableFrames
    rw [List.map_map]
    exact congrArg List.sum (List.map_congr_left fun x _ => hheld x)

/-- An entry found under its key stands once in the table. -/
theorem entries_split (hs : s.TableSound) {k : Key} {e : Entry} (he : s.entry k = some e) :
    ∃ before after, s.entries = before ++ e :: after ∧ (∀ x ∈ before, x.key ≠ k) ∧ ∀ x ∈ after, x.key ≠ k := by
  obtain ⟨hk, before, after, hl, hbefore⟩ := List.find?_eq_some_iff_append.1 he
  have hk : e.key = k := by simpa using hk
  refine ⟨before, after, hl, fun x hx => by simpa using hbefore x hx, fun x hx => ?_⟩
  have hone := hs.oneKey
  unfold State.OneKey at hone
  rw [hl] at hone
  rw [← hk]
  exact ((List.pairwise_cons.1 (List.pairwise_append.1 hone).2.1).1 x hx).symm

theorem map_key_eq_self {l : List Entry} {k : Key} (g : Entry → Entry) (hl : ∀ x ∈ l, x.key ≠ k) :
    (l.map fun x => if x.key == k then g x else x) = l := by
  have hid : ∀ x ∈ l, (if x.key == k then g x else x) = x := fun x hx => if_neg (by simpa using hl x hx)
  rw [List.map_congr_left hid]
  exact List.map_id l

/-- A change of one entry whose candidates' frames the hand accounts for. -/
theorem keeping_updateEntry {k : Key} {e : Entry} {g : Entry → Entry} (he : s.entry k = some e) (hkey : (g e).key = e.key)
    (hlen : e.candidates.length ≤ 4 → (g e).candidates.length ≤ 4) (hheld : (g e).heldFrames + f' = e.heldFrames + f) :
    Keeping ⟨n, f⟩ ⟨n, f'⟩ s (s.updateEntry k g) := by
  refine keeping_setEntries fun hs => ?_
  obtain ⟨before, after, hl, hbefore, hafter⟩ := entries_split hs he
  have hek : e.key = k := entry_key he
  have hmap : (s.entries.map fun x => if x.key == k then g x else x) = before ++ g e :: after := by
    rw [hl, List.map_append, List.map_cons, map_key_eq_self g hbefore, map_key_eq_self g hafter, if_pos (by simpa using hek)]
  have honly : ∀ x ∈ s.entries, x.key = k → x = e := fun x hx hxk => unique_key hs.oneKey hx (entry_mem he).1 (hxk.trans hek.symm)
  refine ⟨tableSound_map hs (fun x hx => ?_) (fun x hx => ?_), ?_⟩
  · by_cases hxk : x.key = k
    · rw [if_pos (by simpa using hxk), honly x hx hxk, hkey]
    · rw [if_neg (by simpa using hxk)]
  · by_cases hxk : x.key = k
    · rw [if_pos (by simpa using hxk), honly x hx hxk]
      exact hlen (hs.candidates e (entry_mem he).1)
    · rw [if_neg (by simpa using hxk)]
      exact hs.candidates x hx
  · rw [hmap, hl, tableFrames_append, tableFrames_append, tableFrames_cons, tableFrames_cons]
    exact trade (tableFrames before + tableFrames after) (by abel) (by abel) hheld

/-- A new entry takes its place in a table that has one (R113). -/
theorem keeping_insertEntry {e : Entry} (hn : s.entry e.key = none) (hlen : s.entries.length < 1024) (hc : e.candidates = []) :
    Keeping h h s (s.setEntries (insertEntry e s.entries)) := by
  refine keeping_setEntries fun hs => ⟨⟨?_, ?_, ?_⟩, ?_⟩
  · rw [setEntries_entries, (insertEntry_perm e s.entries).length_eq, List.length_cons]
    omega
  · exact insertEntry_order hs.order fun x hx => by simpa using List.find?_eq_none.1 hn x hx
  · intro x hx
    rcases List.mem_cons.1 ((insertEntry_perm e s.entries).mem_iff.1 hx) with rfl | hx
    · rw [hc]; decide
    · exact hs.candidates x hx
  · rw [tableFrames_perm (insertEntry_perm e s.entries), tableFrames_cons, Entry.heldFrames, hc, List.map_nil, Multiset.coe_nil, zero_add]

theorem keeping_returnFrames : ∀ (l : List Nat) {s : State} {f : Multiset Nat}, Keeping ⟨n, f + ↑l⟩ ⟨n, f⟩ s (s.returnFrames l)
  | [], s, f => by rw [Multiset.coe_nil, add_zero]; exact .refl s
  | x :: rest, s, f => by
    rw [← Multiset.cons_coe, ← Multiset.singleton_add, add_comm ({x} : Multiset Nat), ← add_assoc]
    exact (keeping_returnFrame x).trans (keeping_returnFrames rest)

/-- Entries leave the table with their candidates' frames, which the pool takes (R182). -/
theorem keeping_removeEntries {gone : List Entry} (hg : gone.Sublist s.entries) : Keeping h h s (s.removeEntries gone) := by
  obtain ⟨n, f⟩ := h
  refine Keeping.trans (h' := ⟨n, f + ↑(gone.flatMap fun e => e.candidates.map Candidate.frame)⟩) (keeping_setEntries fun hs => ⟨?_, ?_⟩)
    (keeping_returnFrames _)
  · have hsub : (s.entries.filter fun e => !gone.any fun g => g.key == e.key).Sublist s.entries := List.filter_sublist
    exact ⟨hsub.length_le.trans hs.count, hs.order.sublist hsub, fun x hx => hs.candidates x (hsub.mem hx)⟩
  · have hnodup : s.entries.Nodup := hs.oneKey.imp fun hne heq => hne (congrArg Entry.key heq)
    have hgone : (s.entries.filter fun e => gone.any fun g => g.key == e.key).Perm gone := by
      refine (List.perm_ext_iff_of_nodup (hnodup.filter _) (hg.nodup hnodup)).2 fun x => ?_
      simp only [List.mem_filter, List.any_eq_true, beq_iff_eq]
      constructor
      · rintro ⟨hx, y, hy, hyx⟩
        rwa [unique_key hs.oneKey hx (hg.mem hy) hyx.symm]
      · exact fun hx => ⟨hg.mem hx, x, hx, rfl⟩
    have hparts := tableFrames_perm (List.filter_append_perm (fun e => gone.any fun g => g.key == e.key) s.entries)
    rw [tableFrames_append, tableFrames_perm hgone] at hparts
    rw [← tableFrames_eq, ← hparts]
    abel

end entries

end Sys2Proof.Machine

/-! What every step keeps, continued: the drive ports, the channels and the arbiter, and how jobs start on a port and leave it. -/

namespace Sys2Proof.Machine

open State (Keeping)

/-! ## Port records (R2, R20) -/

namespace Port

/-- The fields of a port that its law is about. -/
def limits (p : Port) : (Nat × Nat × Nat) × Nat × Nat := ((p.settleTime, p.indexTimeout, p.markTimeout), p.retensionInterval, p.passCount)

theorem sound_of_limits {p q : Port} (h : q.limits = p.limits) (hp : p.Sound) : q.Sound := by
  simp only [limits, Prod.mk.injEq] at h
  obtain ⟨⟨hs, hi, hm⟩, hr, hc⟩ := h
  unfold Port.Sound
  rwa [hs, hi, hm, hr, hc]

variable (p : Port)

@[simp] theorem limits_ask (r : DriveRequest) : (p.ask r).limits = p.limits := rfl
@[simp] theorem limits_stopTape : p.stopTape.limits = p.limits := by unfold stopTape; split <;> rfl
@[simp] theorem limits_motorStop : p.motorStop.limits = p.limits := by unfold motorStop; split <;> rfl
@[simp] theorem limits_motorStart : p.motorStart.limits = p.limits := by unfold motorStart; split <;> rfl
@[simp] theorem limits_stopTimers : p.stopTimers.limits = p.limits := rfl
@[simp] theorem limits_stepOutward : p.stepOutward.limits = p.limits := rfl
@[simp] theorem limits_stepInward : p.stepInward.limits = p.limits := rfl
@[simp] theorem limits_seekStep (target : Nat) : (p.seekStep target).limits = p.limits := by unfold seekStep; (repeat' split) <;> rfl
@[simp] theorem limits_seekSettled : p.seekSettled.limits = p.limits := by unfold seekSettled; split <;> rfl
@[simp] theorem limits_enterPositioning (b : BandAddress) : (p.enterPositioning b).limits = p.limits := rfl
@[simp] theorem limits_enterOnBand : p.enterOnBand.limits = p.limits := rfl
@[simp] theorem limits_restartWatchdog : p.restartWatchdog.limits = p.limits := rfl
@[simp] theorem limits_startRetension : p.startRetension.limits = p.limits := rfl
@[simp] theorem limits_loseHead : p.loseHead.limits = p.limits := rfl
@[simp] theorem limits_readyReport : p.readyReport.limits = p.limits := rfl

@[simp] theorem limits_startMotion : p.startMotion.limits = p.limits := by
  unfold startMotion
  split
  · rfl
  · rw [limits_seekSettled, limits_seekStep]
  · rfl

@[simp] theorem limits_positionRequest (b : BandAddress) (f : Encoding × DataRate) : (p.positionRequest b f).limits = p.limits := by
  unfold positionRequest
  split
  · rfl
  all_goals rw [limits_startMotion, limits_ask, limits_motorStart]; rfl

@[simp] theorem limits_reseatRequest (b : BandAddress) : (p.reseatRequest b).limits = p.limits := by
  unfold reseatRequest
  split
  · rfl
  all_goals
    dsimp only
    split
    · simp
    · split <;> simp

@[simp] theorem limits_recalibrateRequest (b : BandAddress) : (p.recalibrateRequest b).limits = p.limits := by
  unfold recalibrateRequest
  rw [limits_startMotion]
  rfl

@[simp] theorem limits_endStream : p.endStream.limits = p.limits := by
  unfold endStream
  split
  · rw [limits_stopTape]; rfl
  · rfl

@[simp] theorem limits_startPark : p.startPark.limits = p.limits := by
  unfold startPark
  dsimp only
  split
  · rfl
  all_goals rw [limits_stepOutward, limits_motorStart]; rfl

@[simp] theorem limits_endPark : p.endPark.limits = p.limits := by
  unfold endPark
  split
  · rfl
  all_goals exact limits_motorStop p

@[simp] theorem limits_enterFaulted (cause : FaultCause) : (p.enterFaulted cause).limits = p.limits := limits_motorStop p.stopTimers

@[simp] theorem limits_breakOff : p.breakOff.limits = p.limits := limits_motorStop p.stopTimers

@[simp] theorem limits_driveReset : p.driveReset.limits = p.limits :=
  (limits_stopTape p.breakOff).trans p.limits_breakOff

@[simp] theorem limits_restart : p.restart.limits = p.limits := by
  unfold restart
  split
  · split <;> simp
  · simp
  · simp
  all_goals rfl

@[simp] theorem limits_stepDue : p.stepDue.limits = p.limits := by
  unfold stepDue
  split
  · rfl
  · rfl
  · rw [limits_seekSettled, limits_seekStep]
  · rfl

@[simp] theorem limits_endRecalibration : p.endRecalibration.limits = p.limits := by
  unfold endRecalibration
  rw [limits_seekSettled]
  rfl

variable {p}

/-- A stream that no due retension refuses counts a pass within the interval (R20). -/
theorem sound_startStream (hd : p.retensionDue = false) (hp : p.Sound) : p.startStream.Sound := by
  unfold startStream
  split
  · rename_i hk
    obtain ⟨hs, hi, hm, hr, hc⟩ := hp
    have hne : p.passCount ≠ p.retensionInterval := by simpa [retensionDue, hk] using hd
    exact ⟨hs, hi, hm, hr, show p.passCount + 1 ≤ p.retensionInterval by omega⟩
  all_goals exact hp

/-- A pass count of 0 lies within every interval. -/
theorem sound_passCount_zero (hp : p.Sound) : ({ p with passCount := 0 } : Port).Sound := by
  obtain ⟨hs, hi, hm, hr, -⟩ := hp
  exact ⟨hs, hi, hm, hr, Nat.zero_le _⟩

theorem sound_endRetension (hp : p.Sound) : p.endRetension.Sound := sound_passCount_zero hp

theorem sound_mediaChange (hp : p.Sound) : p.mediaChange.Sound := by
  have hbroken : p.breakOff.Sound := sound_of_limits p.limits_breakOff hp
  unfold mediaChange
  split
  · exact hp
  · exact hp
  · exact sound_of_limits (by simp) hp
  · split
    · exact sound_passCount_zero hbroken
    all_goals exact hp
  · split
    · exact sound_passCount_zero hp
    all_goals exact hp
  all_goals
    split
    · exact sound_passCount_zero hbroken
    all_goals exact hbroken

end Port

section walk

variable {h : Hand} {s : State}

/-- A change of a port that its law does not see. -/
theorem keeping_port {p : Fin 4} {g : Port → Port} (hg : ∀ q : Port, (g q).limits = q.limits) : Keeping h h s (s.updatePort p g) :=
  keeping_updatePort (Port.sound_of_limits (hg _))

/-! ## Changes of a job's record -/

theorem sameSeat_state (st : JobState) (j : Job) : j.SameSeat { j with state := st } := ⟨rfl, rfl, rfl, rfl, fun hl => hl⟩

theorem sameSeat_breakHold (j : Job) : j.SameSeat j.breakHold := by
  unfold Job.breakHold
  split
  · exact ⟨rfl, rfl, rfl, rfl, fun hl => hl⟩
  · exact .refl j

theorem sameSeat_decide (e : Ending) (j : Job) : j.SameSeat (j.decide e) := by
  unfold Job.decide
  split
  · exact (sameSeat_breakHold j).trans ⟨rfl, rfl, rfl, rfl, fun hl => hl⟩
  · exact sameSeat_breakHold j

theorem sameSeat_beginPass (j : Job) : j.SameSeat j.beginPass := ⟨rfl, rfl, rfl, rfl, fun _ => Nat.zero_le _⟩

/-! ## Channels -/

theorem landing_setCondition (ch : Channel) (n : PlaceName) (v : PlaceCondition) : (ch.setCondition n v).landing = ch.landing := by
  cases n <;> rfl

theorem landing_dropReceipt (ch : Channel) : ch.dropReceipt.landing = ch.landing := by
  unfold Channel.dropReceipt
  split
  · exact landing_setCondition ..
  · rfl

theorem landing_toFree (ch : Channel) : ch.toFree.landing = ch.landing := landing_dropReceipt ch

theorem landing_restart (ch : Channel) : ch.restart.landing = ch.landing := rfl

theorem landing_setUpPass (v : PassParameters) (ch : Channel) : (ch.setUpPass v).landing = ch.landing := landing_dropReceipt ch

theorem keeping_grant (c : ChannelName) (id : Nat) (p : Fin 4) : Keeping h h s (s.updateChannel c fun ch => ch.grant id p) :=
  keeping_updateChannel fun _ => rfl

/-! ## The arbiter (R75, R95, R96) -/

theorem keeping_enterRetensionWait (j : Job) : Keeping h h s (s.enterRetensionWait j) := by
  unfold State.enterRetensionWait
  dsimp only
  have hjob := keeping_updateJob (h := h) (s := s) (id := j.id) (sameSeat_state .retensionWait)
  split
  · exact hjob.trans (keeping_port Port.limits_startRetension)
  · exact hjob

theorem keeping_requestStream (c : ChannelName) (j : Job) : Keeping h h s (s.requestStream c j).1 := by
  unfold State.requestStream
  split
  · exact .refl s
  · dsimp only
    have hbegin := keeping_updateJob (h := h) (s := s) (id := j.id) sameSeat_beginPass
    split
    · exact hbegin
    · split
      · exact (hbegin.trans (keeping_updateJob sameSeat_breakHold)).trans (keeping_enterRetensionWait j)
      · rename_i hdue
        rw [Bool.not_eq_true] at hdue
        exact ((hbegin.trans (keeping_updateJob (sameSeat_state .streaming))).trans
          (keeping_updatePort (Port.sound_startStream hdue))).trans (keeping_updateChannel (landing_setUpPass _))

theorem keeping_grantWaiting (c : ChannelName) : ∀ (n : Nat) (s : State), Keeping h h s (s.grantWaiting c n)
  | 0, s => .refl s
  | n + 1, s => by
    unfold State.grantWaiting
    split
    · exact .refl s
    · rename_i id rest _
      dsimp only
      split
      · exact (keeping_setWaits rest).trans (keeping_grantWaiting c n _)
      · rename_i j _
        have hasked := ((keeping_setWaits (h := h) (s := s) rest).trans (keeping_grant c id j.drive)).trans (keeping_requestStream c j)
        split
        · exact (hasked.trans (keeping_updateChannel landing_toFree)).trans (keeping_grantWaiting c n _)
        · exact hasked

theorem keeping_release (c : ChannelName) : Keeping h h s (s.release c) :=
  (keeping_updateChannel landing_toFree).trans (keeping_grantWaiting c _ _)

theorem keeping_releaseOf (id : Nat) : Keeping h h s (s.releaseOf id) := by
  unfold State.releaseOf
  split
  · exact keeping_release _
  · exact .refl s

theorem keeping_awaitChannel (id : Nat) : Keeping h h s (s.awaitChannel id) := by
  unfold State.awaitChannel
  split
  · exact .refl s
  · rename_i j _
    dsimp only
    have hjob := keeping_updateJob (h := h) (s := s) (id := id) (sameSeat_state .awaitingChannel)
    split
    · rename_i c _
      have hasked := hjob.trans (keeping_requestStream c j)
      split
      · exact hasked.trans (keeping_release c)
      · exact hasked
    · split
      · exact hjob.trans (keeping_setWaits _)
      · rename_i c _
        have hasked := (hjob.trans (keeping_grant c id j.drive)).trans (keeping_requestStream c j)
        split
        · exact hasked.trans (keeping_release c)
        · exact hasked

/-! ## Jobs start on a port and leave it (R63 to R66, R84, R89) -/

theorem keeping_positionJob (j : Job) : Keeping h h s (s.positionJob j) := by
  unfold State.positionJob
  split
  · exact .refl s
  · rename_i m _
    dsimp only
    have hasked := (keeping_updateJob (h := h) (s := s) (id := j.id) (sameSeat_state .positioning)).trans
      (keeping_port (p := j.drive) fun q => q.limits_positionRequest j.band m.format)
    split
    · exact (hasked.trans (keeping_port Port.limits_enterOnBand)).trans (keeping_awaitChannel _)
    · exact hasked

theorem keeping_startJob (j : Job) : Keeping h h s (s.startJob j) := by
  unfold State.startJob
  dsimp only
  split
  · exact keeping_enterRetensionWait j
  · split
    · exact keeping_awaitChannel _
    · exact keeping_positionJob j

theorem keeping_offerLoop (p : Fin 4) : ∀ (n : Nat) (s : State), Keeping h h s (s.offerLoop p n)
  | 0, s => .refl s
  | n + 1, s => by
    unfold State.offerLoop
    split
    · split
      · exact .refl s
      · split
        · exact keeping_startJob _
        · exact ((keeping_updateJob (sameSeat_decide _)).trans (keeping_postNotice _)).trans (keeping_offerLoop p n _)
    · exact .refl s

theorem keeping_offer (p : Fin 4) : Keeping h h s (s.offer p) := keeping_offerLoop p _ s

theorem keeping_afterLeaving (j : Job) : Keeping h h s (s.afterLeaving j) := by
  unfold State.afterLeaving
  split
  · exact .refl s
  · dsimp only
    split
    · exact keeping_port Port.limits_startPark
    · split
      · exact keeping_port fun _ => rfl
      · exact keeping_offer _

theorem keeping_finishJob (id : Nat) : Keeping h h s (s.finishJob id) := by
  unfold State.finishJob
  split
  · exact .refl s
  · exact (keeping_postNotice _).trans (keeping_afterLeaving _)

theorem keeping_decideEnding (id : Nat) (e : Ending) : Keeping h h s (s.decideEnding id e) :=
  (keeping_updateJob (sameSeat_decide e)).trans (keeping_setWaits _)

theorem keeping_onArrival (p : Fin 4) : Keeping h h s (s.onArrival p) := by
  unfold State.onArrival
  dsimp only
  have harrived := keeping_port (h := h) (s := s) (p := p) Port.limits_enterOnBand
  split
  · exact harrived.trans (keeping_port fun q => q.limits_startPark)
  · split
    · split
      · exact harrived.trans (keeping_awaitChannel _)
      · exact harrived
    · exact harrived.trans (keeping_offer p)

theorem keeping_checkArrival (p : Fin 4) : Keeping h h s (s.checkArrival p) := by
  unfold State.checkArrival
  split
  · exact keeping_onArrival p
  · exact .refl s

end walk

end Sys2Proof.Machine

/-! What every step keeps, continued: table entries at job open, at a reading and at a placing, the synthesis unit, and the close. -/

namespace Sys2Proof.Machine

open State (Keeping)

/-! ## Changes of an entry that leave its list -/

/-- The entry keeps its key and its candidate list. -/
abbrev Entry.SameList (e e' : Entry) : Prop := e'.key = e.key ∧ e'.candidates = e.candidates

theorem Entry.SameList.held {e e' : Entry} (h : e.SameList e') : e'.heldFrames = e.heldFrames := by
  unfold Entry.heldFrames
  rw [h.2]

theorem sameList_derive (e : Entry) : e.SameList e.derive := by
  unfold Entry.derive
  split
  · exact ⟨rfl, rfl⟩
  · split <;> exact ⟨rfl, rfl⟩
  · repeat' split
    all_goals exact ⟨rfl, rfl⟩

theorem sameList_deriveIfOpen (e : Entry) : e.SameList e.deriveIfOpen := by
  unfold Entry.deriveIfOpen
  split
  · exact ⟨rfl, rfl⟩
  · exact sameList_derive e

theorem sameList_open (e : Entry) (quorum : Nat) : e.SameList (e.open_ quorum) := by
  unfold Entry.open_
  dsimp only
  repeat' split
  all_goals exact ⟨rfl, rfl⟩

/-! ## Candidates that come and go -/

theorem heldFrames_join (e : Entry) (c : Candidate) : (e.join c).heldFrames = e.heldFrames + {c.frame} := by
  unfold Entry.heldFrames Entry.join
  rw [List.map_append, ← Multiset.coe_add]
  rfl

/-- The candidate that leaves gives its frame, and the one that comes takes its own. -/
theorem heldFrames_replace {e : Entry} {k : Nat} {left : Candidate} (c : Candidate) (hk : e.candidates[k]? = some left) :
    (e.replace k c).heldFrames + {left.frame} = e.heldFrames + {c.frame} := by
  obtain ⟨hlt, rfl⟩ := List.getElem?_eq_some_iff.1 hk
  have hperm : (↑e.candidates : Multiset Candidate) = e.candidates[k] ::ₘ ↑(e.candidates.eraseIdx k) :=
    Multiset.coe_eq_coe.2 (List.getElem_cons_eraseIdx_perm hlt).symm
  have hheld : e.heldFrames = e.candidates[k].frame ::ₘ ↑((e.candidates.eraseIdx k).map Candidate.frame) := by
    unfold Entry.heldFrames
    rw [← Multiset.map_coe, hperm, Multiset.map_cons, Multiset.map_coe]
  rw [hheld]
  unfold Entry.heldFrames Entry.replace
  rw [List.map_append, ← Multiset.coe_add, ← Multiset.singleton_add]
  show _ + {c.frame} + _ = _
  abel

theorem replace_length {e : Entry} {k : Nat} {left : Candidate} (c : Candidate) (hk : e.candidates[k]? = some left) :
    (e.replace k c).candidates.length = e.candidates.length := by
  obtain ⟨hlt, -⟩ := List.getElem?_eq_some_iff.1 hk
  unfold Entry.replace
  dsimp only
  rw [List.length_append, List.length_eraseIdx_of_lt hlt, List.length_singleton]
  omega

/-- The search for the lowest agree count answers with a place of the list. -/
theorem lowestAgree_lt (p : Candidate → Bool) : ∀ (l : List Candidate) (i : Nat) {k a : Nat}, lowestAgree p l i = some (k, a) →
    i ≤ k ∧ k < i + l.length
  | [], _, _, _, h => by simp [lowestAgree] at h
  | c :: rest, i, k, a, h => by
    unfold lowestAgree at h
    rw [List.length_cons]
    split at h
    · split at h
      · cases h; omega
      · simp at h
    · rename_i hrest
      have := lowestAgree_lt p rest (i + 1) hrest
      split at h
      · cases h; omega
      · cases h; omega

theorem lowestAgree_getElem {e : Entry} {p : Candidate → Bool} {k : Nat} (h : (lowestAgree p e.candidates 0).map Prod.fst = some k) :
    ∃ c, e.candidates[k]? = some c := by
  obtain ⟨⟨k', a⟩, hl, rfl⟩ := Option.map_eq_some_iff.1 h
  have hlt := lowestAgree_lt p e.candidates 0 hl
  exact ⟨_, List.getElem?_eq_getElem (by omega)⟩

theorem weakestBad_getElem {e : Entry} {k : Nat} (h : e.weakestBad = some k) : ∃ c, e.candidates[k]? = some c := lowestAgree_getElem h

theorem weakest_getElem {e : Entry} {k : Nat} (h : e.weakest = some k) : ∃ c, e.candidates[k]? = some c := by
  unfold Entry.weakest at h
  split at h
  · rename_i hb
    cases h
    exact weakestBad_getElem hb
  · exact lowestAgree_getElem h

theorem frameOf_eq {e : Entry} {k : Nat} {c : Candidate} (h : e.candidates[k]? = some c) : e.frameOf k = some c.frame := by
  unfold Entry.frameOf
  rw [h]
  rfl

theorem agreeWith_frame (c : Candidate) (r : Reading) (pinned : Bool) : (c.agreeWith r pinned).frame = c.frame := by
  unfold Candidate.agreeWith
  dsimp only
  split <;> rfl

theorem map_frame_modify (l : List Candidate) (k : Nat) {g : Candidate → Candidate} (hg : ∀ c, (g c).frame = c.frame) :
    (l.modify k g).map Candidate.frame = l.map Candidate.frame := by
  refine List.ext_getElem? fun i => ?_
  simp only [List.getElem?_map, List.getElem?_modify]
  cases l[i]? with
  | none => rfl
  | some c =>
    simp only [Option.map_some]
    split
    · exact congrArg some (hg c)
    · rfl

/-- What a reading at its entry does with frames (R126 to R128): the entry and the landing place hold together what they held, and the pool's
frame where one is taken. -/
structure Entry.Accounts (e : Entry) (frame : Nat) (poolFrame : Option Nat) (t : Taken) : Prop where
  key : t.entry.key = e.key
  length : e.candidates.length ≤ 4 → t.entry.candidates.length ≤ 4
  frames : ∃ taken : Multiset Nat, t.entry.heldFrames + {t.frame} = e.heldFrames + {frame} + taken
    ∧ ((t.usedPool = false ∧ taken = 0) ∨ ∃ f, t.usedPool = true ∧ poolFrame = some f ∧ taken = {f})

theorem meet_accounts (e : Entry) (r : Reading) (d : ReadingData) (frame : Nat) (same poolFrame : Option Nat) :
    e.Accounts frame poolFrame (e.meet r d frame same poolFrame) := by
  unfold Entry.meet
  split
  · rename_i k
    have hframes := map_frame_modify e.candidates k (g := fun c => c.agreeWith r e.pinned) fun c => agreeWith_frame c r e.pinned
    refine ⟨rfl, fun h => ?_, 0, ?_, .inl ⟨rfl, rfl⟩⟩
    · simpa using h
    · rw [add_zero]
      exact congrArg (fun l : List Nat => (↑l : Multiset Nat) + {frame}) hframes
  · split
    · exact ⟨rfl, fun h => h, 0, (add_zero _).symm, .inl ⟨rfl, rfl⟩⟩
    · split
      · exact ⟨rfl, fun h => h, 0, (add_zero _).symm, .inl ⟨rfl, rfl⟩⟩
      · split
        · rename_i hroom
          split
          · rename_i f
            refine ⟨rfl, fun _ => ?_, {f}, ?_, .inr ⟨f, rfl, rfl, rfl⟩⟩
            · show (e.candidates ++ [_]).length ≤ 4
              rw [List.length_append, List.length_singleton]
              exact hroom
            · exact congrArg (· + {f}) (heldFrames_join e (r.candidate d frame))
          · exact ⟨rfl, fun h => h, 0, (add_zero _).symm, .inl ⟨rfl, rfl⟩⟩
        · split
          · rename_i k hk
            have hk : e.weakestBad = some k := by split at hk; exacts [hk, by simp at hk]
            obtain ⟨left, hleft⟩ := weakestBad_getElem hk
            refine ⟨rfl, fun h => (replace_length _ hleft).trans_le h, 0, ?_, .inl ⟨rfl, rfl⟩⟩
            rw [add_zero, frameOf_eq hleft, Option.getD_some]
            exact heldFrames_replace (r.candidate d frame) hleft
          · exact ⟨rfl, fun h => h, 0, (add_zero _).symm, .inl ⟨rfl, rfl⟩⟩

section walk

variable {h : Hand} {s : State}

/-! ## Job open (R58, R59) -/

theorem entry_isNone {k : Key} : s.entry k = none ↔ ∀ e ∈ s.entries, e.key ≠ k := by
  simp [State.entry]

theorem keeping_openEntry {k : Key} {size quorum : Nat} (hroom : s.entry k = none → s.entries.length < 1024) :
    Keeping h h s (s.openEntry k size quorum) := by
  unfold State.openEntry
  split
  · exact keeping_updateEntry_same fun e => ⟨(sameList_open e quorum).1, (sameList_open e quorum).held⟩
  · rename_i hnone
    exact keeping_insertEntry hnone (hroom hnone) rfl

/-- A key that has an entry keeps one, and only a missing key makes the table longer. -/
theorem openEntry_grows (k : Key) (size quorum : Nat) :
    (∀ x, (s.openEntry k size quorum).entry x = none → s.entry x = none)
      ∧ (s.openEntry k size quorum).entries.length = s.entries.length + if (s.entry k).isNone then 1 else 0 := by
  unfold State.openEntry
  split
  · rename_i e he
    constructor
    · intro x hx
      rw [entry_isNone] at hx ⊢
      intro y hy
      have hkey := hx _ (List.mem_map_of_mem hy)
      dsimp only at hkey
      split at hkey
      · rwa [(sameList_open y quorum).1] at hkey
      · exact hkey
    · rw [he, Option.isNone_some, if_neg Bool.false_ne_true]
      exact List.length_map ..
  · rename_i hnone
    have hperm := insertEntry_perm (Entry.fresh k size quorum) s.entries
    constructor
    · intro x hx
      rw [entry_isNone] at hx ⊢
      exact fun y hy => hx y (hperm.mem_iff.2 (List.mem_cons_of_mem _ hy))
    · rw [hnone, Option.isNone_none, if_pos rfl]
      exact hperm.length_eq

/-- Job open where the table has room for the ids without entries (R58). -/
theorem keeping_openEntries (size quorum : Nat) : ∀ (keys : List Key) (s : State), s.missingEntries keys + s.entries.length ≤ 1024 →
    Keeping h h s (s.openEntries keys size quorum)
  | [], s, _ => .refl s
  | k :: rest, s, hroom => by
    obtain ⟨hstay, hlen⟩ := openEntry_grows (s := s) k size quorum
    have hcount : s.missingEntries (k :: rest) = s.missingEntries rest + if (s.entry k).isNone then 1 else 0 := List.countP_cons ..
    have hle : (s.openEntry k size quorum).missingEntries rest ≤ s.missingEntries rest :=
      List.countP_mono_left fun x _ hx => Option.isNone_iff_eq_none.2 (hstay x (Option.isNone_iff_eq_none.1 hx))
    refine (keeping_openEntry fun hnone => ?_).trans (keeping_openEntries size quorum rest _ ?_)
    · rw [hcount, hnone, Option.isNone_none, if_pos rfl] at hroom
      omega
    · omega

/-! ## A reading at its entry (R123 to R131) -/

theorem keeping_tellTaken (r : Reading) (dropped progress : Bool) : Keeping h h s (s.tellTaken r dropped progress) := by
  unfold State.tellTaken
  split
  · exact keeping_updateJob (by exact fun _ => ⟨rfl, rfl, rfl, rfl, id⟩)
  · exact .refl s

/-- A landing place takes a frame from the hand and gives its own. -/
theorem keeping_freePlace {n : Nat} {f : Multiset Nat} (d : ReadingData) (frame : Nat) :
    Keeping ⟨n, f + {frame}⟩ ⟨n, f + {((s.channel d.channel).place d.place).frame}⟩ s (s.freePlace d frame) := by
  refine keeping_setChannel ?_
  generalize s.channel d.channel = ch
  cases d.place
  · show {frame} + {ch.placeTwo.frame} + (f + {ch.placeOne.frame}) = {ch.placeOne.frame} + {ch.placeTwo.frame} + (f + {frame})
    abel
  · show {ch.placeOne.frame} + {frame} + (f + {ch.placeTwo.frame}) = {ch.placeOne.frame} + {ch.placeTwo.frame} + (f + {frame})
    abel

theorem keeping_takeHeaderOnly {r : Reading} {e : Entry} (he : s.entry r.key = some e) : Keeping h h s (s.takeHeaderOnly r e) := by
  unfold State.takeHeaderOnly
  dsimp only
  have hsame := sameList_deriveIfOpen { e with headerOnly := satSucc 255 e.headerOnly }
  exact (keeping_updateEntry he hsame.1 (by rw [hsame.2]; exact id) (by rw [hsame.held]; rfl)).trans (keeping_tellTaken ..)

theorem keeping_takeData {r : Reading} {d : ReadingData} {e : Entry} (he : s.entry r.key = some e) : Keeping h h s (s.takeData r d e) := by
  unfold State.takeData
  dsimp only
  generalize hframe : ((s.channel d.channel).place d.place).frame = frame
  generalize ht : e.meet r d frame (s.identical e (s.frameData frame e.size) d.check) s.pool.head? = t
  obtain ⟨hkey, hlen, taken, hheld, hpool⟩ := ht ▸ meet_accounts e r d frame (s.identical e (s.frameData frame e.size) d.check) s.pool.head?
  have hsame := sameList_deriveIfOpen t.entry.countReading
  obtain ⟨n, f⟩ := h
  -- The entry gives up the frame that the landing place takes, and the other way round: both frames are lent.
  have hpooled : Keeping ⟨n, f + ({t.frame} + {frame})⟩ ⟨n, f + ({t.frame} + {frame}) + taken⟩ s
      (if t.usedPool then s.setPool s.pool.tail else s) := by
    rcases hpool with ⟨hu, rfl⟩ | ⟨x, hu, hx, rfl⟩
    · rw [hu, if_neg Bool.false_ne_true, add_zero]
      exact .refl s
    · rw [hu, if_pos rfl]
      refine keeping_setPool ?_
      obtain ⟨rest, hrest⟩ : ∃ rest, s.pool = x :: rest := List.head?_eq_some_iff.1 hx
      rw [hrest, List.tail_cons, ← Multiset.cons_coe, ← Multiset.singleton_add]
      abel
  have hentry : (if t.usedPool then s.setPool s.pool.tail else s).entry r.key = some e := by split <;> exact he
  have hplace : ((((if t.usedPool then s.setPool s.pool.tail else s).updateEntry r.key fun _ => t.entry.countReading.deriveIfOpen).channel
      d.channel).place d.place).frame = frame := by
    rw [← hframe]
    cases d.channel <;> split <;> rfl
  have hchanged := hpooled.trans (keeping_updateEntry (g := fun _ => t.entry.countReading.deriveIfOpen) (f' := f + {t.frame} + {t.frame}) hentry
    (hsame.1.trans hkey) (by rw [hsame.2]; exact hlen) (by
      rw [hsame.held, show t.entry.countReading.heldFrames = t.entry.heldFrames from rfl]
      calc _ = t.entry.heldFrames + {t.frame} + (f + {t.frame}) := by abel
        _ = _ := by rw [hheld]; abel))
  have hfreed := hchanged.trans (keeping_freePlace (f := f + {t.frame}) d t.frame)
  rw [hplace, add_assoc] at hfreed
  exact (hfreed.lend _).trans (keeping_tellTaken ..)

theorem keeping_reconcile (r : Reading) : Keeping h h s (s.reconcile r) := by
  unfold State.reconcile
  split
  · rename_i he _
    exact keeping_takeData he
  · rename_i he _
    exact keeping_takeHeaderOnly he
  · obtain ⟨n, f⟩ := h
    exact ((keeping_freePlace _ _).lend _).trans (keeping_tellTaken ..)
  · exact keeping_tellTaken ..

/-! ## The synthesis unit (R142 to R151) -/

/-- The reserved places a request accounts for: one where a SYNTHESIZE asked (R153, R191). -/
def SynthRequest.places (r : SynthRequest) : Nat := if r.source.isCommand then 1 else 0

theorem commandRequests_append (u : Synth) (r : SynthRequest) :
    ({ u with wait := u.wait ++ [r] } : Synth).commandRequests = u.commandRequests + r.places := by
  simp only [Synth.commandRequests, SynthRequest.places, List.countP_append, List.countP_singleton]
  omega

theorem commandRequests_wait {u : Synth} {r : SynthRequest} {rest : List SynthRequest} (hw : u.wait = r :: rest) :
    u.commandRequests = ({ u with wait := rest } : Synth).commandRequests + r.places := by
  simp only [Synth.commandRequests, SynthRequest.places, hw, List.countP_cons]
  omega

theorem commandRequests_inHand {u : Synth} {r : SynthRequest} (hr : u.inHand = some r) (contested ties : Nat) :
    u.commandRequests = (u.release contested ties).commandRequests + r.places := by
  simp only [Synth.commandRequests, SynthRequest.places, Synth.release, hr, Option.toList_some, Option.toList_none, List.countP_nil,
    List.countP_singleton]
  omega

theorem keeping_judgeStart {k : Nat} {f : Multiset Nat} {r : SynthRequest} {t : State} (hidle : s.synth.idle = true)
    (ht : s.judgeStart r = .inl t) : Keeping ⟨k + r.places, f⟩ ⟨k, f⟩ s t := by
  unfold State.judgeStart at ht
  split at ht
  · simp at ht
  split at ht
  · simp at ht
  split at ht
  · simp at ht
  split at ht
  · simp at ht
  split at ht
  · simp at ht
  split at ht
  · simp at ht
  rename_i x v hclaim
  cases ht
  have hv : v.synth = s.synth := by
    unfold State.claimFrame at hclaim
    split at hclaim
    · simp at hclaim
    · cases hclaim; rfl
  refine (keeping_claimFrame hclaim).trans (keeping_setSynth fun hu => ?_)
  have hin : v.synth.inputs = none := by rw [hv]; exact Option.isNone_iff_eq_none.1 hidle
  obtain ⟨hunit, hwork⟩ := hu
  rw [hin] at hunit
  have hhand : v.synth.inHand = none := by simpa using hunit.symm
  rw [hhand] at hwork
  have hframe : v.synth.workFrame = none := by simpa using hwork
  refine ⟨⟨rfl, rfl⟩, ?_, ?_⟩
  · rw [hframe]
    show {x} + f = 0 + (f + {x})
    abel
  · simp only [Synth.commandRequests, SynthRequest.places, hhand, Option.toList_some, Option.toList_none, List.countP_nil, List.countP_singleton]
    omega

theorem keeping_synthArrive {k : Nat} {f : Multiset Nat} {r : SynthRequest} {t : State} (ht : s.synthArrive r = .inl t) :
    Keeping ⟨k + r.places, f⟩ ⟨k, f⟩ s t := by
  unfold State.synthArrive at ht
  split at ht
  · rename_i hidle
    exact keeping_judgeStart (Bool.and_eq_true_iff.1 hidle).1 ht
  · cases ht
    exact keeping_setSynth fun hu => ⟨hu, rfl, by rw [commandRequests_append]; omega⟩

theorem heldFrames_become (e : Entry) (st : EntryState) (best : Option Nat) : (e.become st best).heldFrames = e.heldFrames := rfl

theorem synthVictim_getElem {e : Entry} {k : Nat} (hk : e.synthVictim = some k) : ∃ c, e.candidates[k]? = some c := by
  unfold Entry.synthVictim at hk
  split at hk
  · simp at hk
  · exact weakest_getElem hk

/-- A full list holds a candidate that may leave it. -/
theorem lowestAgree_isSome {p : Candidate → Bool} : ∀ {l : List Candidate} (i : Nat), (∃ c ∈ l, p c = true) → (lowestAgree p l i).isSome = true
  | [], _, ⟨_, hc, _⟩ => by simp at hc
  | c :: rest, i, ⟨x, hx, hp⟩ => by
    unfold lowestAgree
    split
    · rename_i hnone
      rcases List.mem_cons.1 hx with rfl | hx
      · rw [if_pos hp]; rfl
      · have := lowestAgree_isSome (i + 1) ⟨x, hx, hp⟩
        rw [hnone] at this
        simp at this
    · split <;> rfl

theorem weakest_isSome {e : Entry} (hne : e.candidates ≠ []) : e.weakest.isSome = true := by
  unfold Entry.weakest
  split
  · rfl
  · obtain ⟨c, rest, hc⟩ := List.exists_cons_of_ne_nil hne
    rw [Option.isSome_map]
    exact lowestAgree_isSome 0 ⟨c, by rw [hc]; exact List.mem_cons_self, rfl⟩

/-- The frame in hand goes to the SYNTH candidate, and the pool takes the frame of the one it replaces (R150). -/
theorem keeping_placeSynth {n : Nat} {f : Multiset Nat} {e : Entry} (he : s.entry e.key = some e) (frame : Nat) (check : Word)
    (contested ties : Nat) : Keeping ⟨n, f + {frame}⟩ ⟨n, f⟩ s (s.placeSynth e frame check contested ties).1 := by
  unfold State.placeSynth
  dsimp only
  split
  · rename_i hvictim
    refine keeping_updateEntry he rfl (fun _ => ?_) ?_
    · unfold Entry.synthVictim at hvictim
      split at hvictim
      · rename_i hroom
        show (e.candidates ++ [_]).length ≤ 4
        rw [List.length_append, List.length_singleton]
        exact hroom
      · rename_i hfull
        have hsome := weakest_isSome (e := e) (by rintro hnil; rw [hnil] at hfull; exact hfull (by decide))
        rw [hvictim] at hsome
        simp at hsome
    · rw [heldFrames_become, heldFrames_join]
      show _ + {frame} + f = _
      abel
  · rename_i k hvictim
    obtain ⟨left, hleft⟩ := synthVictim_getElem hvictim
    simp only [frameOf_eq hleft]
    refine ((keeping_returnFrame (f := f + {frame}) left.frame).trans (keeping_updateEntry he rfl (fun hlen => ?_) ?_)).lend {left.frame}
    · exact (replace_length _ hleft).trans_le hlen
    · rw [heldFrames_become]
      have hswap := heldFrames_replace (synthCandidate frame check) hleft
      calc _ = (e.replace k (synthCandidate frame check)).heldFrames + {left.frame} + f := by abel
        _ = _ := by rw [hswap]; show _ + {frame} + f = _; abel

theorem keeping_claimPlacing {n : Nat} {f : Multiset Nat} (r : SynthRequest) (frame : Nat) (check : Word) (contested ties : Nat) :
    Keeping ⟨n, f + {frame}⟩ ⟨n, f⟩ s (s.claimPlacing r frame check contested ties).1 := by
  unfold State.claimPlacing
  split
  · exact keeping_returnFrame frame
  · rename_i e he
    repeat' split
    · exact keeping_returnFrame frame
    · exact keeping_returnFrame frame
    · exact keeping_returnFrame frame
    · exact keeping_returnFrame frame
    · exact keeping_placeSynth (by rw [entry_key he]; exact he) frame check contested ties

/-- The end of a vote: the unit is left, its request's place is in hand, and its frame goes to the pool or into the table. -/
theorem keeping_endVote {k : Nat} {f : Multiset Nat} {r : SynthRequest} (inputs : List SynthInput) {frame : Nat}
    (hr : s.synth.inHand = some r) (hf : s.synth.workFrame = some frame) :
    Keeping ⟨k, f⟩ ⟨k + r.places, f⟩ s (s.endVote r inputs frame).1 := by
  unfold State.endVote
  dsimp only
  generalize voteFrom (votePositions inputs) 0 inputs = v
  have hleft : Keeping ⟨k, f⟩ ⟨k + r.places, f + {frame}⟩ s
      ((s.writeFrame frame 0 v.bytes).setSynth (s.synth.release v.contested v.ties)) := by
    refine (keeping_writeFrame frame 0 v.bytes).trans (keeping_setSynth fun _ => ⟨⟨rfl, rfl⟩, ?_, ?_⟩)
    · rw [show (s.writeFrame frame 0 v.bytes).synth.workFrame = some frame from hf]
      show 0 + (f + {frame}) = {frame} + f
      abel
    · have hcount := commandRequests_inHand hr v.contested v.ties
      show _ = s.synth.commandRequests + k
      omega
  split
  · exact hleft.trans (keeping_claimPlacing ..)
  · exact hleft.trans (keeping_returnFrame frame)

theorem keeping_answerSynth {k : Nat} {f : Multiset Nat} (c : Ctx) (key : Key) (via : Option Via) (e : SynthEnd)
    (he : ∀ code body, e = .atStart code body → body.length ≤ 14) : Keeping ⟨k + 1, f⟩ ⟨k, f⟩ s (s.answerSynth c key via e) := by
  cases e with
  | atStart code body => exact keeping_post fun _ => responseRecord_length _ _ _ _ _ (Nat.succ_le_succ (he code body rfl))
  | placed => exact keeping_post fun _ => responseRecord_length _ _ _ _ _ (by simp)
  | notClean => exact keeping_post fun _ => responseRecord_length _ _ _ _ _ (by simp)
  | discarded => exact keeping_post fun _ => responseRecord_length _ _ _ _ _ (by simp)

end walk

end Sys2Proof.Machine

/-! What every step keeps, continued: the close of a job, the ends of passes, and what a channel makes of a stream. -/

namespace Sys2Proof.Machine

open State (Keeping)

section walk

variable {h : Hand} {s : State}

/-! ## The close (R78 to R81, R152) -/

theorem keeping_become (k : Key) (st : EntryState) (best : Option Nat) : Keeping h h s (s.updateEntry k fun e => e.become st best) :=
  keeping_updateEntry_same fun _ => ⟨rfl, rfl⟩

theorem keeping_markEntry (j : Job) (sector : Nat) (noFrame : Bool) : Keeping h h s (s.markEntry j sector noFrame) := by
  unfold State.markEntry
  dsimp only
  split
  · exact .refl s
  · split
    · split
      · exact keeping_updateJob (by exact fun _ => ⟨rfl, rfl, rfl, rfl, id⟩)
      · split
        · exact (keeping_become ..).trans (keeping_updateJob (by exact fun _ => ⟨rfl, rfl, rfl, rfl, id⟩))
        · exact keeping_become ..
    · exact keeping_become ..
    · exact keeping_become ..
    all_goals exact .refl s

theorem keeping_closeDone (id : Nat) : Keeping h h s (s.closeDone id) :=
  (keeping_updateJob fun j => (sameSeat_decide .done j).trans (by exact ⟨rfl, rfl, rfl, rfl, fun hl => hl⟩)).trans
    (keeping_finishJob id)

theorem keeping_closeFrom (j : Job) : ∀ (ids : List Nat) (s : State), Keeping h h s (State.closeFrom j ids s)
  | [], s => keeping_closeDone j.id
  | sector :: rest, s => by
    unfold State.closeFrom
    split
    · split
      · rename_i hasked
        obtain ⟨k, f⟩ := h
        exact (keeping_synthArrive (k := k) hasked).trans (keeping_updateJob (by exact fun _ => ⟨rfl, rfl, rfl, rfl, id⟩))
      · exact (keeping_markEntry ..).trans (keeping_closeFrom j rest _)
    · exact (keeping_markEntry ..).trans (keeping_closeFrom j rest _)

theorem keeping_enterClosing (j : Job) : Keeping h h s (s.enterClosing j) := by
  unfold State.enterClosing
  dsimp only
  have hjob := keeping_updateJob (h := h) (s := s) (id := j.id) (sameSeat_state .closing)
  refine Keeping.trans ?_ (keeping_closeFrom ..)
  split
  · exact (hjob.trans (keeping_updateJob (by exact fun _ => ⟨rfl, rfl, rfl, rfl, id⟩))).trans (keeping_release _)
  · exact hjob

theorem keeping_resumeClose (id : Nat) (r : SynthEnd) : Keeping h h s (s.resumeClose id r) := by
  unfold State.resumeClose
  split
  · exact .refl s
  · split
    · exact .refl s
    · dsimp only
      have hjob := keeping_updateJob (h := h) (s := s) (id := id) (f := fun j => { j with closeHand := none })
        fun _ => ⟨rfl, rfl, rfl, rfl, fun hl => hl⟩
      split
      · exact hjob.trans (keeping_finishJob id)
      · exact (hjob.trans (keeping_markEntry ..)).trans (keeping_closeFrom ..)

/-- The body of a refusal at the start of a synthesis has at most one word (R153). -/
theorem judgeStart_body {r : SynthRequest} {code : RefusalCode} {body : List Word} (hr : s.judgeStart r = .inr (code, body)) : body.length ≤ 1 := by
  unfold State.judgeStart at hr
  repeat' split at hr
  all_goals cases hr
  all_goals simp

/-- A request's end gives its reserved place to its answer, or, of a close, had none. -/
theorem keeping_reportSynth {k : Nat} {f : Multiset Nat} (r : SynthRequest) (e : SynthEnd)
    (he : ∀ code body, e = .atStart code body → body.length ≤ 14) : Keeping ⟨k + r.places, f⟩ ⟨k, f⟩ s (s.reportSynth r e) := by
  obtain ⟨key, source⟩ := r
  cases source with
  | command q tag via => exact keeping_answerSynth _ _ _ e he
  | close id => exact keeping_resumeClose ..

theorem keeping_serveLoop {k : Nat} {f : Multiset Nat} : ∀ (n : Nat) (s : State), Keeping ⟨k, f⟩ ⟨k, f⟩ s (s.serveLoop n)
  | 0, s => .refl s
  | n + 1, s => by
    unfold State.serveLoop
    split
    · rename_i hidle
      split
      · exact .refl s
      · rename_i r rest hwait
        dsimp only
        have htaken : Keeping ⟨k, f⟩ ⟨k + r.places, f⟩ s (s.setSynth { s.synth with wait := rest }) := by
          refine keeping_setSynth fun hu => ⟨hu, rfl, ?_⟩
          rw [commandRequests_wait hwait]
          exact (Nat.add_left_comm ..).trans (Nat.add_comm ..)
        split
        · rename_i hstart
          exact htaken.trans (keeping_judgeStart hidle hstart)
        · rename_i code body hfails
          refine (htaken.trans (keeping_reportSynth r _ fun code' body' he => ?_)).trans (keeping_serveLoop n _)
          cases he
          exact (judgeStart_body hfails).trans (by decide)
    · exact .refl s

theorem keeping_serveNext : Keeping h h s s.serveNext := keeping_serveLoop _ s

/-! ## After a pass (R63, R70 to R77) -/

theorem keeping_decidePass (j : Job) : Keeping h h s (s.decidePass j) := by
  unfold State.decidePass State.reseatJob
  split
  · exact keeping_enterClosing j
  · split
    · dsimp only
      have hraised : Keeping h h s (s.updateJob j.id Job.escalate) := keeping_updateJob fun k => by
        unfold Job.escalate
        split
        · exact ⟨rfl, rfl, rfl, rfl, fun hl => hl⟩
        · exact .refl k
      split
      · exact (hraised.trans (keeping_updateJob (sameSeat_state .reseating))).trans (keeping_port fun q => q.limits_reseatRequest j.band)
      · exact hraised.trans (keeping_awaitChannel _)
    · exact keeping_enterClosing j

theorem keeping_checkDrained (id : Nat) : Keeping h h s (s.checkDrained id) := by
  unfold State.checkDrained
  split
  · exact .refl s
  · split
    · split
      · exact keeping_finishJob id
      · exact keeping_decidePass _
    · exact .refl s

theorem keeping_endPassNormally (c : ChannelName) : Keeping h h s (s.endPassNormally c) := by
  unfold State.endPassNormally
  split
  · exact .refl s
  · rename_i j _
    dsimp only
    have hended := (keeping_port (h := h) (s := s) (p := j.drive) Port.limits_endStream).trans
      (keeping_updateJob (id := j.id) (f := Job.endPass) fun _ => ⟨rfl, rfl, rfl, rfl, id⟩)
    refine Keeping.trans ?_ (keeping_checkDrained j.id)
    split
    · exact hended.trans (keeping_updateChannel fun ch => landing_dropReceipt ch)
    · exact hended.trans (keeping_release c)

theorem keeping_endPassCancelled (c : ChannelName) : Keeping h h s (s.endPassCancelled c) := by
  unfold State.endPassCancelled
  split
  · exact .refl s
  · rename_i j _
    exact (((keeping_port Port.limits_endStream).trans (keeping_updateJob (by exact fun _ => ⟨rfl, rfl, rfl, rfl, id⟩))).trans
      (keeping_release c)).trans (keeping_checkDrained j.id)

theorem keeping_cutStream (j : Job) : Keeping h h s (s.cutStream j) :=
  Keeping.trans (keeping_updateJob (by exact fun _ => ⟨rfl, rfl, rfl, rfl, id⟩)) (keeping_releaseOf j.id)

theorem keeping_endPassFaulted (j : Job) : Keeping h h s (s.endPassFaulted j) := by
  unfold State.endPassFaulted
  dsimp only
  have hended := (keeping_port (h := h) (s := s) (p := j.drive) Port.limits_endStream).trans
    (keeping_updateJob (id := j.id) (f := Job.endFaulted) fun k => (sameSeat_breakHold k).trans ⟨rfl, rfl, rfl, rfl, fun hl => hl⟩)
  refine Keeping.trans ?_ ((keeping_releaseOf j.id).trans (keeping_checkDrained j.id))
  split
  · exact (hended.trans (keeping_port fun q => q.limits_enterFaulted _)).trans (keeping_updateJob (sameSeat_decide _))
  · exact hended

/-! ## Endings from outside (R65, R86, R87) -/

theorem keeping_stopJob (j : Job) (e : Ending) : Keeping h h s (s.stopJob j e) := by
  unfold State.stopJob
  dsimp only
  have hdecided := keeping_decideEnding (h := h) (s := s) j.id e
  split
  · exact (hdecided.trans (keeping_releaseOf _)).trans (keeping_postNotice _)
  · split
    · split
      · exact hdecided.trans (keeping_cutStream j)
      · exact (hdecided.trans (keeping_cutStream j)).trans (keeping_postNotice _)
    · exact hdecided

theorem keeping_afterStop (j : Job) : Keeping h h s (s.afterStop j) := by
  unfold State.afterStop
  split
  · exact .refl s
  · exact keeping_afterLeaving j

/-! ## What a channel makes of its stream (R99 to R112) -/

theorem keeping_placeReading (c : ChannelName) (j : Job) (r : Receipt) (data : List Byte) (check : Word) (marks : List Nat) :
    Keeping h h s (s.placeReading c j r data check marks) := by
  unfold State.placeReading
  dsimp only
  refine (((keeping_writeFrame ..).trans (keeping_updateChannel fun ch => ?_))).trans (keeping_setInput _)
  exact landing_setCondition ch r.place .queued

theorem keeping_placeHeaderOnly (c : ChannelName) (j : Job) (r : Receipt) : Keeping h h s (s.placeHeaderOnly c j r) := by
  unfold State.placeHeaderOnly
  dsimp only
  have hdropped := keeping_updateChannel (h := h) (s := s) (c := c) landing_dropReceipt
  split
  · exact (hdropped.trans (keeping_updateChannel (by exact fun _ => rfl))).trans (keeping_setInput _)
  · exact hdropped.trans (keeping_updateJob (by exact fun _ => ⟨rfl, rfl, rfl, rfl, id⟩))

theorem keeping_afterSector (c : ChannelName) : Keeping h h s (s.afterSector c) := by
  unfold State.afterSector
  split
  · exact .refl s
  · exact keeping_endPassNormally c
  · exact keeping_endPassCancelled c

theorem keeping_discardSector (c : ChannelName) : Keeping h h s (s.discardSector c) := keeping_updateChannel landing_dropReceipt

theorem keeping_sectorAbsent (c : ChannelName) (j : Job) (r : Receipt) : Keeping h h s (s.sectorAbsent c j r) := by
  unfold State.sectorAbsent
  dsimp only
  refine Keeping.trans ?_ (keeping_afterSector c)
  split
  · exact keeping_discardSector c
  · exact keeping_placeHeaderOnly c j r

theorem keeping_captureEnd (c : ChannelName) : Keeping h h s (s.captureEnd c) := by
  unfold State.captureEnd
  dsimp only
  split
  · exact keeping_endPassNormally c
  · split
    · exact keeping_updateChannel (by exact fun _ => rfl)
    · exact .refl s

theorem keeping_captureStart (c : ChannelName) (startId : Option Nat) : Keeping h h s (s.captureStart c startId) :=
  keeping_updateChannel fun _ => rfl

theorem keeping_endPassWrongBand (c : ChannelName) (j : Job) : Keeping h h s (s.endPassWrongBand c j) :=
  (((keeping_port Port.limits_endStream).trans (keeping_updateJob sameSeat_breakHold)).trans (keeping_discardSector c)).trans (keeping_release c)

theorem keeping_retryBand (c : ChannelName) (j : Job) : Keeping h h s (s.retryBand c j) :=
  ((keeping_endPassWrongBand c j).trans (keeping_updateJob (by exact fun _ => ⟨rfl, rfl, rfl, rfl, id⟩))).trans
    (keeping_port fun q => q.limits_recalibrateRequest j.band)

theorem keeping_failBand (c : ChannelName) (j : Job) : Keeping h h s (s.failBand c j) :=
  ((keeping_endPassWrongBand c j).trans (keeping_updateJob fun k => (sameSeat_decide _ k).trans (by exact ⟨rfl, rfl, rfl, rfl, fun hl => hl⟩))).trans
    (keeping_checkDrained j.id)

theorem keeping_capture (c : ChannelName) (j : Job) (hd : Header) (position : Nat) : Keeping h h s (s.capture c j hd position) := by
  unfold State.capture
  split
  · exact keeping_updateChannel fun ch => landing_setCondition ch _ .receiving
  · exact keeping_updateJob (by exact fun _ => ⟨rfl, rfl, rfl, rfl, id⟩)

theorem keeping_judgePlace (c : ChannelName) (j : Job) (g : Geometry) (hd : Header) (position : Nat) :
    Keeping h h s (s.judgePlace c j g hd position) := by
  unfold State.judgePlace
  split
  · exact keeping_updateJob (by exact fun _ => ⟨rfl, rfl, rfl, rfl, id⟩)
  · split
    · exact keeping_updateJob (by exact fun _ => ⟨rfl, rfl, rfl, rfl, id⟩)
    · exact keeping_capture ..

/-- The layout list takes no more than 40 ids (R103). -/
theorem sameSeat_noteLayout (sector : Nat) (j : Job) : j.SameSeat (j.noteLayout sector) := by
  unfold Job.noteLayout
  split
  · rename_i hroom
    refine ⟨rfl, rfl, rfl, rfl, fun _ => ?_⟩
    show (j.layout ++ [sector]).length ≤ 40
    rw [List.length_append, List.length_singleton]
    exact hroom
  · exact .refl j

theorem keeping_judgeHeader (c : ChannelName) (j : Job) (m : Medium) (hd : Header) (position : Nat) :
    Keeping h h s (s.judgeHeader c j m hd position) := by
  unfold State.judgeHeader
  dsimp only
  split
  · exact (keeping_updateJob fun k => (sameSeat_noteLayout hd.sector k).trans (by exact ⟨rfl, rfl, rfl, rfl, fun hl => hl⟩)).trans (keeping_judgePlace ..)
  · split
    · exact keeping_retryBand c j
    · exact keeping_failBand c j
    · exact keeping_updateJob (by exact fun _ => ⟨rfl, rfl, rfl, rfl, id⟩)

theorem keeping_countStray (j : Job) : Keeping h h s (s.countStray j) := keeping_updateJob (by exact fun _ => ⟨rfl, rfl, rfl, rfl, id⟩)

theorem keeping_takeGoodHeader (c : ChannelName) (hd : Header) : Keeping h h s (s.takeGoodHeader c hd) := by
  unfold State.takeGoodHeader
  split
  · exact .refl s
  · split
    · exact .refl s
    · dsimp only
      split
      · exact Keeping.trans (keeping_updateChannel (by exact fun _ => rfl)) (keeping_judgeHeader ..)
      · exact keeping_countStray _

theorem keeping_takeBadHeader (c : ChannelName) : Keeping h h s (s.takeBadHeader c) := by
  unfold State.takeBadHeader
  split
  · exact .refl s
  · dsimp only
    split
    · exact Keeping.trans (keeping_updateChannel (by exact fun _ => rfl)) (keeping_updateJob (by exact fun _ => ⟨rfl, rfl, rfl, rfl, id⟩))
    · exact keeping_countStray _

theorem keeping_meetReceipt (c : ChannelName) : Keeping h h s (s.meetReceipt c).1 := by
  unfold State.meetReceipt
  dsimp only
  split
  · split
    · exact .refl s
    · exact keeping_sectorAbsent ..
  · exact .refl s
  · exact .refl s

theorem keeping_goodHeaderAt (c : ChannelName) (hd : Header) : Keeping h h s (s.goodHeaderAt c hd) := by
  unfold State.goodHeaderAt
  split
  · split
    · exact (keeping_captureStart ..).trans (keeping_takeGoodHeader c hd)
    · exact .refl s
  · dsimp only
    have hmet := keeping_meetReceipt (h := h) (s := s) c
    split
    · split
      · exact hmet.trans (keeping_captureEnd c)
      · exact hmet.trans (keeping_takeGoodHeader c hd)
    · exact hmet
  · exact .refl s
  · exact .refl s

theorem keeping_badHeaderAt (c : ChannelName) : Keeping h h s (s.badHeaderAt c) := by
  unfold State.badHeaderAt
  split
  · dsimp only
    split
    · exact (keeping_meetReceipt c).trans (keeping_takeBadHeader c)
    · exact keeping_meetReceipt c
  all_goals exact .refl s

theorem keeping_indexAt (c : ChannelName) : Keeping h h s (s.indexAt c) := by
  unfold State.indexAt
  dsimp only
  have hseen := keeping_updateChannel (h := h) (s := s) (c := c) (g := fun ch => { ch with indexesSeen := satSucc 2 (s.channel c).indexesSeen })
    fun _ => rfl
  split
  · split
    · exact hseen.trans (keeping_captureStart ..)
    · exact hseen.trans (keeping_captureEnd c)
    all_goals exact hseen
  · split
    · exact hseen.trans (keeping_captureEnd c)
    · exact hseen

theorem keeping_blockMarkAt (c : ChannelName) : Keeping h h s (s.blockMarkAt c) := by
  unfold State.blockMarkAt
  split
  · exact keeping_meetReceipt c
  all_goals exact .refl s

theorem keeping_bandStartAt (c : ChannelName) : Keeping h h s (s.bandStartAt c) := by
  unfold State.bandStartAt
  split
  · exact keeping_captureStart ..
  all_goals exact .refl s

theorem keeping_bandEndAt (c : ChannelName) : Keeping h h s (s.bandEndAt c) := by
  unfold State.bandEndAt
  split
  · exact keeping_endPassNormally c
  · split
    · exact keeping_captureEnd c
    · exact .refl s
    · split
      · split
        · exact (keeping_discardSector c).trans (keeping_afterSector c)
        · exact keeping_sectorAbsent ..
      · split
        · exact (keeping_discardSector c).trans (keeping_captureEnd c)
        · exact (keeping_placeHeaderOnly ..).trans (keeping_captureEnd c)
  all_goals exact .refl s

theorem keeping_dataMarkAt (c : ChannelName) : Keeping h h s (s.dataMarkAt c) := keeping_updateChannel fun _ => rfl

theorem keeping_dataEndAt (c : ChannelName) (data : List Byte) (check : Word) (marks : List Nat) :
    Keeping h h s (s.dataEndAt c data check marks) := by
  unfold State.dataEndAt
  split
  · dsimp only
    refine Keeping.trans ?_ (keeping_afterSector c)
    split
    · exact keeping_discardSector c
    · exact keeping_placeReading ..
  · exact .refl s

/-! ## The data port (R161 to R170, R180, R181) -/

theorem keeping_setMisuse : Keeping h h s s.setMisuse :=
  keeping_setLink rfl fun hl => ⟨hl.places, hl.console, hl.transfer, hl.responses, hl.wordsRead, hl.empty, hl.level⟩

theorem keeping_putBus (w : Word) : Keeping h h s (s.putBus w) :=
  keeping_setLink rfl fun hl => ⟨hl.places, hl.console, hl.transfer, hl.responses, hl.wordsRead, hl.empty, hl.level⟩

theorem keeping_setPinned (k : Key) (v : Bool) : Keeping h h s (s.setPinned k v) := keeping_updateEntry_same fun _ => ⟨rfl, rfl⟩

/-- A transfer ends, its frame, where it held one, in hand. -/
theorem keeping_closeTransfer {n : Nat} {f : Multiset Nat} (t : Transfer) (o : ClosingOutcome) :
    Keeping ⟨n, f⟩ ⟨n, f + ↑(inboundOf s.transfer)⟩ s (s.closeTransfer t o) :=
  (keeping_setTransfer (v := none) (by rw [show inboundOf none = [] from rfl, Multiset.coe_nil]; abel)).trans (keeping_setClosing _)

theorem amend_sameList (e : Entry) (k : Nat) (source : AmendSource) : e.SameList (e.amend k source) := ⟨rfl, rfl⟩

/-- The host's version: the frame in hand joins the entry, or goes to the pool. -/
theorem keeping_placeHost {n : Nat} {f : Multiset Nat} (t : Transfer) {e : Entry} (he : s.entry e.key = some e) (clean : Bool) :
    Keeping ⟨n, f + {t.frame}⟩ ⟨n, f⟩ s (s.placeHost t e clean).1 := by
  unfold State.placeHost
  split
  · exact (keeping_returnFrame t.frame).trans (keeping_updateEntry_same fun x => ⟨rfl, rfl⟩)
  · dsimp only
    split
    · rename_i hroom
      refine keeping_updateEntry he rfl (fun _ => ?_) ?_
      · show (e.candidates ++ [_]).length ≤ 4
        rw [List.length_append, List.length_singleton]
        exact hroom
      · rw [(amend_sameList _ _ _).held, heldFrames_join]
        show _ + {t.frame} + f = _
        abel
    · split
      · exact keeping_returnFrame t.frame
      · rename_i k hk
        obtain ⟨left, hleft⟩ := weakest_getElem hk
        simp only [frameOf_eq hleft]
        refine ((keeping_returnFrame (f := f + {t.frame}) left.frame).trans (keeping_updateEntry he rfl (fun hlen => ?_) ?_)).lend {left.frame}
        · exact (replace_length _ hleft).trans_le hlen
        · rw [(amend_sameList _ _ _).held]
          have hswap := heldFrames_replace (hostCandidate t.frame t.check clean) hleft
          calc _ = (e.replace k (hostCandidate t.frame t.check clean)).heldFrames + {left.frame} + f := by abel
            _ = _ := by rw [hswap]; show _ + {t.frame} + f = _; abel

theorem keeping_completionClaim {n : Nat} {f : Multiset Nat} (t : Transfer) (clean : Bool) :
    Keeping ⟨n, f + {t.frame}⟩ ⟨n, f⟩ s (s.completionClaim t clean).1 := by
  unfold State.completionClaim
  split
  · exact keeping_returnFrame t.frame
  · rename_i e he
    split
    · exact keeping_returnFrame t.frame
    · exact keeping_placeHost t (by rw [entry_key he]; exact he) clean

/-- No part of a completion claim touches the transfer. -/
theorem completionClaim_transfer (t : Transfer) (clean : Bool) : (s.completionClaim t clean).1.transfer = s.transfer := by
  unfold State.completionClaim State.placeHost
  dsimp only
  repeat' split
  all_goals rfl

theorem keeping_completeInbound {t : Transfer} (ht : inboundOf s.transfer = [t.frame]) (t' : Transfer) (hf : t'.frame = t.frame) :
    Keeping h h s (s.completeInbound t') := by
  obtain ⟨n, f⟩ := h
  unfold State.completeInbound
  dsimp only
  generalize (dataCheck t'.kind (s.frameData t'.frame t'.size) == t'.check) = clean
  have hclaim := keeping_completionClaim (n := n) (f := f) (s := s) t' clean
  have hclosed := keeping_closeTransfer (n := n) (f := f) (s := (s.completionClaim t' clean).1) t' (s.completionClaim t' clean).2
  rw [completionClaim_transfer, ht, ← hf] at hclosed
  exact (hclaim.trans hclosed).lend {t'.frame}

theorem keeping_portRead : Keeping h h s s.portRead := by
  obtain ⟨n, f⟩ := h
  unfold State.portRead
  split
  · exact keeping_setMisuse.trans (keeping_putBus 0)
  · rename_i t ht
    split
    · exact keeping_setMisuse.trans (keeping_putBus 0)
    · rename_i hd
      have hnone : inboundOf s.transfer = [] := by rw [ht, inboundOf, hd, if_neg (by decide)]
      dsimp only
      split
      · have hclosed := keeping_closeTransfer (n := n) (f := f) (s := (s.putBus (s.exportWord t t.moved)).setPinned t.key false)
          { t with moved := t.moved + 1 } .completed
        rw [show inboundOf ((s.putBus (s.exportWord t t.moved)).setPinned t.key false).transfer = [] from hnone, Multiset.coe_nil,
          add_zero] at hclosed
        exact ((keeping_putBus _).trans (keeping_setPinned t.key false)).trans hclosed
      · refine (keeping_putBus _).trans (keeping_setTransfer ?_)
        rw [show inboundOf (s.putBus (s.exportWord t t.moved)).transfer = [] from hnone]
        rw [inboundOf, if_neg (by dsimp only; rw [hd]; decide)]

theorem keeping_portWrite (w : Word) : Keeping h h s (s.portWrite w) := by
  obtain ⟨n, f⟩ := h
  unfold State.portWrite
  split
  · exact keeping_setMisuse
  · rename_i t ht
    split
    · exact keeping_setMisuse
    · rename_i hd
      have hframe : inboundOf s.transfer = [t.frame] := by rw [ht, inboundOf, hd, if_pos rfl]
      dsimp only
      split
      · exact (keeping_writeFrame ..).trans (keeping_completeInbound (s := s.writeFrame t.frame (4 * t.moved) (bytesOfWord w)) hframe
          { t with moved := t.moved + 1 } rfl)
      · refine (keeping_writeFrame ..).trans (keeping_setTransfer ?_)
        rw [show inboundOf (s.writeFrame t.frame (4 * t.moved) (bytesOfWord w)).transfer = [t.frame] from hframe]
        rw [inboundOf, if_pos (by dsimp only; exact hd)]

theorem keeping_endTransferEarly {t : Transfer} (ht : s.transfer = some t) (o : ClosingOutcome) : Keeping h h s (s.endTransferEarly t o) := by
  obtain ⟨n, f⟩ := h
  unfold State.endTransferEarly
  dsimp only
  split
  · rename_i hd
    have hclosed := (keeping_setPinned (h := ⟨n, f⟩) (s := s) t.key false).trans (keeping_closeTransfer t o)
    rwa [show inboundOf (s.setPinned t.key false).transfer = [] by
      show inboundOf s.transfer = []
      rw [ht, inboundOf, hd, if_neg (by decide)], Multiset.coe_nil, add_zero] at hclosed
  · rename_i hd
    have hclosed := keeping_closeTransfer (n := n) (f := f) (s := s.returnFrame t.frame) t o
    rw [show inboundOf (s.returnFrame t.frame).transfer = [t.frame] by
      show inboundOf s.transfer = [t.frame]
      rw [ht, inboundOf, hd, if_pos rfl]] at hclosed
    exact ((keeping_returnFrame t.frame).trans hclosed).lend {t.frame}

end walk

end Sys2Proof.Machine

/-! What every step keeps, continued: the volume table, and the answers of commands. -/

namespace Sys2Proof.Machine

open State (Keeping)

/-! ## The volume table (R28 to R31) -/

section volumes

variable {s : State} {h : Nat} {v : VolumeEntry}

theorem mem_handles : h ∈ handles ↔ 1 ≤ h ∧ h < 32 := by
  rw [show handles = List.range' 1 31 from by decide, List.mem_range'_1]

theorem volume_setVolume_self (hh : h ∈ handles) : (s.setVolume h v).volume h = v := by
  have hlt := (mem_handles.1 hh).2
  simp [State.setVolume, State.volume, hlt]

theorem volume_setVolume_other {x : Nat} (hx : x ≠ h) : (s.setVolume h v).volume x = s.volume x := by
  unfold State.setVolume
  split
  · rename_i hh
    unfold State.volume
    split
    · exact Vector.getElem_set_ne hh _ hx.symm
    · rfl
  · rfl

theorem medium_eq_some {m : Medium} : s.medium h = some m ↔ s.volume h = .medium m := by
  unfold State.medium
  cases s.volume h <;> simp

theorem medium_setVolume_self (hh : h ∈ handles) {m : Medium} : (s.setVolume h v).medium h = some m ↔ v = .medium m := by
  rw [medium_eq_some, volume_setVolume_self hh]

theorem medium_setVolume_other {x : Nat} (hx : x ≠ h) : (s.setVolume h v).medium x = s.medium x := by
  unfold State.medium
  rw [volume_setVolume_other hx]

theorem presentOn_setVolume_other {x : Nat} (hx : x ≠ h) (p : Fin 4) : (s.setVolume h v).presentOn p x = s.presentOn p x := by
  unfold State.presentOn
  rw [medium_setVolume_other hx]

theorem presentOn_iff {p : Fin 4} : s.presentOn p h = true ↔ ∃ m, s.volume h = .medium m ∧ m.drive = p ∧ m.present = true := by
  unfold State.presentOn
  constructor
  · intro hp
    split at hp
    · rename_i m hm
      exact ⟨m, medium_eq_some.1 hm, by simpa using hp⟩
    · simp at hp
  · rintro ⟨m, hm, hd, hpr⟩
    rw [medium_eq_some.2 hm]
    simp [hd, hpr]

/-- A sound entry stays sound when handle `h` changes, where no ALIAS onto `h` loses its medium. -/
theorem entrySound_setVolume {w : VolumeEntry} (hh : h ∈ handles) (hw : s.EntrySound w)
    (hviews : ∀ a, w = .view a → a.target = h → ∃ m m', s.medium h = some m ∧ v = .medium m' ∧ m'.geometry = m.geometry) :
    (s.setVolume h v).EntrySound w := by
  cases w with
  | unused => trivial
  | medium m => exact hw
  | view a =>
    obtain ⟨hlevel, hlimit, htarget, m, hm, hfits⟩ := hw
    refine ⟨hlevel, hlimit, htarget, ?_⟩
    by_cases hat : a.target = h
    · obtain ⟨m₀, m', hm₀, hv, hg⟩ := hviews a rfl hat
      rw [hat, hm₀] at hm
      cases hm
      exact ⟨m', by rw [hat, medium_setVolume_self hh]; exact hv, by rw [hg]; exact hfits⟩
    · exact ⟨m, by rw [medium_setVolume_other hat]; exact hm, hfits⟩

/-- A sound entry at a handle keeps the table sound, where ALIAS entries keep their targets and no port gets a second present medium. -/
theorem volumesSound_setVolume (hs : s.VolumesSound) (hh : h ∈ handles) (hv : s.EntrySound v)
    (hviews : ∀ a, (v = .view a ∨ ∃ x ∈ handles, s.volume x = .view a) → a.target = h →
      ∃ m m', s.medium h = some m ∧ v = .medium m' ∧ m'.geometry = m.geometry)
    (hpresent : ∀ m, v = .medium m → m.present = true → ∀ x ∈ handles, x ≠ h → s.presentOn m.drive x = false) :
    (s.setVolume h v).VolumesSound where
  null := by
    have hne : (0 : Nat) ≠ h := by have := (mem_handles.1 hh).1; omega
    rw [volume_setVolume_other hne]
    exact hs.null
  entries x hx := by
    by_cases hxh : x = h
    · rw [hxh, volume_setVolume_self hh]
      exact entrySound_setVolume hh hv fun a ha => hviews a (.inl ha)
    · rw [volume_setVolume_other hxh]
      exact entrySound_setVolume hh (hs.entries x hx) fun a ha => hviews a (.inr ⟨x, hx, ha⟩)
  present p x hx y hy hpx hpy := by
    -- A present medium at `h` of drive `p` excludes one elsewhere.
    have hown : ∀ z ∈ handles, z ≠ h → (s.setVolume h v).presentOn p h = true → (s.setVolume h v).presentOn p z ≠ true := by
      intro z hz hzh hp
      obtain ⟨m, hm, rfl, hpr⟩ := presentOn_iff.1 hp
      rw [volume_setVolume_self hh] at hm
      rw [presentOn_setVolume_other hzh, hpresent m hm hpr z hz hzh]
      decide
    by_cases hxh : x = h
    · by_cases hyh : y = h
      · rw [hxh, hyh]
      · exact absurd hpy (hown y hy hyh (hxh ▸ hpx))
    · by_cases hyh : y = h
      · exact absurd hpx (hown x hx hxh (hyh ▸ hpy))
      · rw [presentOn_setVolume_other hxh] at hpx
        rw [presentOn_setVolume_other hyh] at hpy
        exact hs.present p x hx y hy hpx hpy

/-- No ALIAS is onto a handle that is no MEDIUM entry (R39). -/
theorem VolumesSound.target_medium (hs : s.VolumesSound) {x : Nat} {a : View} (hx : x ∈ handles) (ha : s.volume x = .view a) :
    a.target ∈ handles ∧ ∃ m, s.volume a.target = .medium m := by
  have hsound := hs.entries x hx
  rw [ha] at hsound
  obtain ⟨-, -, htarget, m, hm, -⟩ := hsound
  exact ⟨htarget, m, medium_eq_some.1 hm⟩

/-- A new entry in a free place of the table. -/
theorem volumesSound_define (hs : s.VolumesSound) (hh : h ∈ handles) (hfree : s.volume h = .unused) (hv : s.EntrySound v)
    (hpresent : ∀ m, v = .medium m → m.present = true → ∀ x ∈ handles, s.presentOn m.drive x = false) :
    (s.setVolume h v).VolumesSound := by
  refine volumesSound_setVolume hs hh hv (fun a ha hat => ?_) fun m hm hp x hx _ => hpresent m hm hp x hx
  have hno : s.medium h = none := by unfold State.medium; rw [hfree]
  rcases ha with rfl | ⟨x, hx, ha⟩
  · obtain ⟨-, -, -, m, hm, -⟩ := hv
    rw [hat, hno] at hm
    cases hm
  · obtain ⟨-, m, hm⟩ := VolumesSound.target_medium hs hx ha
    rw [hat, hfree] at hm
    cases hm

/-- An entry with no ALIAS onto it leaves the table. -/
theorem volumesSound_undefine (hs : s.VolumesSound) (hh : h ∈ handles) (hviews : ∀ x ∈ handles, ∀ a, s.volume x = .view a → a.target ≠ h) :
    (s.setVolume h .unused).VolumesSound := by
  refine volumesSound_setVolume hs hh trivial (fun a ha hat => ?_) fun m hm => by cases hm
  rcases ha with ha | ⟨x, hx, ha⟩
  · cases ha
  · exact absurd hat (hviews x hx a ha)

/-- The present flag of a medium is set where its drive has no other, or cleared. -/
theorem volumesSound_setPresent (hs : s.VolumesSound) {b : Bool}
    (hb : ∀ m, s.volume h = .medium m → b = true → ∀ x ∈ handles, x ≠ h → s.presentOn m.drive x = false) :
    (s.setPresent h b).VolumesSound := by
  unfold State.setPresent
  split
  · rename_i m hm
    by_cases hh : h ∈ handles
    · have hsound := hs.entries h hh
      rw [medium_eq_some.1 hm] at hsound
      refine volumesSound_setVolume hs hh hsound (fun a _ _ => ⟨m, _, hm, rfl, rfl⟩) fun m' hm' hp => ?_
      cases hm'
      exact hb m (medium_eq_some.1 hm) hp
    · have hvol : s.volume h = .unused := by
        rcases Nat.eq_zero_or_pos h with rfl | hpos
        · exact hs.null
        · exact dif_neg fun hlt => hh (mem_handles.2 ⟨hpos, hlt⟩)
      rw [medium_eq_some, hvol] at hm
      cases hm
  · exact hs

theorem presentHandle_eq_none {p : Fin 4} : s.presentHandle p = none ↔ ∀ x ∈ handles, s.presentOn p x = false := by
  simp [State.presentHandle]

end volumes

/-! ## The check chain (R31) -/

theorem chainEntry_ok {s : State} {level h : Nat} {v : VolumeEntry} (hc : s.chainEntry level h = .ok v) :
    h ∈ handles ∧ s.volume h = v ∧ v ≠ .unused ∧ level ≤ v.level := by
  unfold State.chainEntry at hc
  split at hc
  · simp at hc
  split at hc
  · simp at hc
  rename_i h0 h32
  split at hc
  · simp at hc
  · rename_i hused
    split at hc
    · simp at hc
    · rename_i hlevel
      cases hc
      exact ⟨mem_handles.2 ⟨by omega, by omega⟩, rfl, hused, Nat.le_of_not_lt hlevel⟩

theorem viewTarget_ok {s : State} {level : Nat} {f : ViewField} {m : Medium} (hv : s.viewTarget level f = .ok m) :
    f.target.toNat ∈ handles ∧ s.volume f.target.toNat = .medium m ∧ f.offset.toNat + f.limit.toNat ≤ m.geometry.cylinders := by
  unfold State.viewTarget at hv
  split at hv
  · simp at hv
  · rename_i m' he
    obtain ⟨hh, hvol, -, -⟩ := chainEntry_ok he
    split at hv
    · simp at hv
    · rename_i hfits
      cases hv
      exact ⟨hh, hvol, Nat.le_of_not_lt hfits⟩
  · simp at hv
  · simp at hv

/-! ## Geometries and profiles (R36, R46, R47) -/

theorem kindOfNumber_ne_noDrive {k : BitVec 2} (h0 : k ≠ 0) (h3 : k ≠ 3) : kindOfNumber k.toNat ≠ .noDrive := by
  revert k
  decide

/-- A geometry that passes each test of R36's table. -/
theorem geometrySound_of_tests {kind : PortKind} {g : GeometryWord} {m : MediumField} (hg : badGeometryField kind g m = none) :
    (geometryOf g m).Sound kind := by
  unfold badGeometryField at hg
  rw [Option.map_eq_none_iff, List.find?_eq_none] at hg
  simp only [geometryTests, List.forall_mem_cons, Bool.not_eq_true, Bool.not_eq_false', Bool.and_eq_true, decide_eq_true_eq, beq_iff_eq] at hg
  obtain ⟨hcyl, hheads, hsectors, hfirst, hsize, henc, hrate, -⟩ := hg
  refine ⟨hcyl, hheads, hsectors, hfirst, ?_⟩
  unfold geometryOf
  dsimp only
  generalize m.size = size at hsize
  generalize m.encoding = encoding at henc
  generalize m.rate = rate at hrate
  by_cases hk : kind = .floppy
  · subst hk
    refine ⟨by rw [if_pos rfl]; bv_omega, ?_, ?_⟩
    · revert encoding
      decide
    · revert rate
      decide
  · have hne : (kind == PortKind.floppy) = false := by simpa using hk
    rw [if_neg hk, beq_iff_eq] at henc hrate
    rw [hne, Bool.false_or, beq_iff_eq] at hsize
    subst hsize henc hrate
    simp [hk, encodingOf, rateOf]

theorem attributesSound_of_tests {a : AttributeField} (ha : badAttribute a = none) : (attributesOf a).Sound := by
  unfold badAttribute at ha
  split at ha
  · simp at ha
  rename_i hpass
  split at ha
  · simp at ha
  rename_i hquorum
  simp only [beq_iff_eq, Bool.or_eq_true, decide_eq_true_eq, not_or] at hpass hquorum
  obtain ⟨hq0, hq4⟩ := hquorum
  unfold attributesOf
  refine ⟨⟨?_, ?_⟩, ⟨?_, ?_⟩, ?_⟩ <;> dsimp only <;> bv_omega

theorem profileSound_of_tests {m : MatchField} {a : AttributeField} (hp : badProfileField m a = none) :
    Profile.Sound ⟨matchOf m, attributesOf a⟩ := by
  unfold badProfileField at hp
  split at hp
  · simp at hp
  rename_i hhead
  refine ⟨attributesSound_of_tests hp, ?_, ?_, ?_, ?_, ?_⟩ <;> unfold matchOf <;> dsimp only <;> bv_omega

theorem profilesSound_setSlot {s : State} (hs : s.ProfilesSound) (i : Fin 10) {p : Option Profile} (hp : ∀ x, p = some x → x.Sound) :
    (s.setProfiles { s.profiles with slots := s.profiles.slots.set i p }).ProfilesSound where
  default := hs.default
  slots k x hx := by
    simp only [setProfiles_profiles, Fin.getElem_fin, Vector.getElem_set] at hx
    split at hx
    · exact hp x hx
    · exact hs.slots k x hx

/-! ## Answers and refusals (R191, R193) -/

section answers

variable {s : State} {k : Nat} {f : Multiset Nat}

theorem keeping_answerWithin (c : Ctx) (code : AnswerCode) {body : List Word} (hb : s.TablesSound → body.length ≤ 15) :
    Keeping ⟨k + 1, f⟩ ⟨k, f⟩ s (s.answer c code body) := keeping_post fun hs => responseRecord_length _ _ _ _ _ (hb hs)

theorem keeping_answer (c : Ctx) (code : AnswerCode) {body : List Word} (hb : body.length ≤ 15) :
    Keeping ⟨k + 1, f⟩ ⟨k, f⟩ s (s.answer c code body) := keeping_answerWithin c code fun _ => hb

theorem keeping_refuse (c : Ctx) (code : RefusalCode) {body : List Word} (hb : body.length ≤ 14) :
    Keeping ⟨k + 1, f⟩ ⟨k, f⟩ s (s.refuse c code body) := keeping_post fun _ => responseRecord_length _ _ _ _ _ (Nat.succ_le_succ hb)

theorem keeping_refuseHandle (c : Ctx) (code : RefusalCode) (handle : Nat) {body : List Word} (hb : body.length ≤ 14) :
    Keeping ⟨k + 1, f⟩ ⟨k, f⟩ s (s.refuseHandle c code handle body) := keeping_post fun _ => responseRecord_length _ _ _ _ _ (Nat.succ_le_succ hb)

theorem keeping_refuseChain (c : Ctx) (r : ChainRefusal) : Keeping ⟨k + 1, f⟩ ⟨k, f⟩ s (s.refuseChain c r) := keeping_refuseHandle c _ _ (by simp)

theorem keeping_refuseKey (c : Ctx) (r : Resolved) (code : RefusalCode) {body : List Word} (hb : body.length ≤ 13) :
    Keeping ⟨k + 1, f⟩ ⟨k, f⟩ s (s.refuseKey c r code body) := keeping_refuse c code (Nat.succ_le_succ hb)

theorem keeping_refusePortBusy (c : Ctx) (r : Resolved) (t : Transfer) : Keeping ⟨k + 1, f⟩ ⟨k, f⟩ s (s.refusePortBusy c r t) :=
  keeping_refuseKey c r _ (by simp)

end answers

/-! ## The volume and profile commands (R37 to R43, R52 to R57) -/

section commands

variable {s : State} {k : Nat} {f : Multiset Nat} (c : Ctx)

theorem keeping_setVolume {h : Hand} {n : Nat} {v : VolumeEntry} (hv : s.VolumesSound → (s.setVolume n v).VolumesSound) :
    Keeping h h s (s.setVolume n v) := by
  unfold State.setVolume at hv ⊢
  split
  · rename_i hn
    rw [dif_pos hn] at hv
    exact keeping_setVolumes hv
  · exact .refl s

theorem keeping_setPresent {h : Hand} {n : Nat} {b : Bool}
    (hb : ∀ m, s.volume n = .medium m → b = true → ∀ x ∈ handles, x ≠ n → s.presentOn m.drive x = false) :
    Keeping h h s (s.setPresent n b) := by
  have hsound := fun hs => volumesSound_setPresent (s := s) hs hb
  unfold State.setPresent at hsound ⊢
  split
  · rename_i m hm
    rw [hm] at hsound
    exact keeping_setVolume hsound
  · exact .refl s

theorem keeping_mount {handle : BitVec 6} {g : GeometryWord} {m : MediumField} (hm : malformed (.mount handle g m) = false) :
    Keeping ⟨k + 1, f⟩ ⟨k, f⟩ s (s.mount c handle g m) := by
  simp only [malformed, Bool.or_eq_false_iff, decide_eq_false_iff_not, beq_eq_false_iff_ne] at hm
  obtain ⟨⟨⟨-, hlevel⟩, hk0⟩, hk3⟩ := hm
  unfold State.mount
  dsimp only
  split
  · exact keeping_refuseHandle _ _ _ (by simp)
  split
  · exact keeping_refuseHandle _ _ _ (by simp)
  split
  · exact keeping_refuseHandle _ _ _ (by simp)
  rename_i h0 h32 hfree
  split
  · exact keeping_refuseHandle _ _ _ (by simp)
  split
  · exact keeping_refuseHandle _ _ _ (by simp)
  rename_i hgeometry
  split
  · exact keeping_refuseHandle _ _ _ (by simp)
  · refine Keeping.trans (keeping_setVolume fun hs => volumesSound_define hs (mem_handles.2 ⟨by omega, by omega⟩) (by simpa using hfree)
      (by exact ⟨kindOfNumber_ne_noDrive hk0 hk3, geometrySound_of_tests hgeometry, by bv_omega, Nat.le_of_not_lt hlevel⟩) ?_) (keeping_answer c _ ?_)
    · intro m' hm' hp
      cases hm'
      unfold State.mountReason at hp
      split at hp
      · simp at hp
      · rename_i hnone
        exact presentHandle_eq_none.1 hnone
    · cases s.mountReason (portOf (m.drive.setWidth 8)) <;> simp [PresentReason.body]

theorem keeping_defineView {handle : BitVec 6} {v : ViewField} (hm : malformed (.defineView handle v) = false) :
    Keeping ⟨k + 1, f⟩ ⟨k, f⟩ s (s.defineView c handle v) := by
  simp only [malformed, Bool.or_eq_false_iff, decide_eq_false_iff_not, beq_eq_false_iff_ne] at hm
  obtain ⟨⟨hlimit, -⟩, hlevel⟩ := hm
  unfold State.defineView
  dsimp only
  split
  · exact keeping_refuseHandle _ _ _ (by simp)
  split
  · exact keeping_refuseHandle _ _ _ (by simp)
  split
  · exact keeping_refuseHandle _ _ _ (by simp)
  rename_i h0 h32 hfree
  split
  · exact keeping_refuseHandle _ _ _ (by simp)
  split
  · exact keeping_refuseChain ..
  · rename_i m htarget
    obtain ⟨hh, hvol, hfits⟩ := viewTarget_ok htarget
    refine Keeping.trans (keeping_setVolume fun hs => volumesSound_define hs (mem_handles.2 ⟨by omega, by omega⟩) (by simpa using hfree)
      (by exact ⟨Nat.le_of_not_lt hlevel, by bv_omega, hh, m, medium_eq_some.2 hvol, hfits⟩) fun m' hm' => by cases hm') (keeping_answer c _ (by simp))

theorem keeping_confirm (handle : BitVec 6) : Keeping ⟨k + 1, f⟩ ⟨k, f⟩ s (s.confirm c handle) := by
  unfold State.confirm
  dsimp only
  split
  · exact keeping_refuseChain ..
  · exact keeping_refuseHandle _ _ _ (by simp)
  · exact keeping_refuseHandle _ _ _ (by simp)
  · rename_i m hentry
    obtain ⟨-, hvol, -, -⟩ := chainEntry_ok hentry
    split
    · split
      · exact keeping_refuseHandle _ _ _ (by simp)
      · exact keeping_answer _ _ (by simp)
    · rename_i hnone
      split
      · exact keeping_refuseHandle _ _ _ (by simp)
      · refine Keeping.trans (keeping_setPresent fun m' hm' _ x hx _ => ?_) (keeping_answer _ _ (by simp))
        rw [hvol] at hm'
        cases hm'
        exact presentHandle_eq_none.1 hnone x hx

/-- No ALIAS onto a handle is counted (R41). -/
theorem viewsOf_eq_zero {h : Nat} (hn : s.viewsOf h = 0) : ∀ x ∈ handles, ∀ a, s.volume x = .view a → a.target ≠ h := by
  intro x hx a ha hat
  have := List.countP_eq_zero.1 hn x hx
  simp [ha, hat] at this

theorem keeping_unmount (handle : BitVec 6) : Keeping ⟨k + 1, f⟩ ⟨k, f⟩ s (s.unmount c handle) := by
  unfold State.unmount
  dsimp only
  split
  · exact keeping_refuseChain ..
  · rename_i v hentry
    obtain ⟨hh, hvol, -, -⟩ := chainEntry_ok hentry
    split
    · exact keeping_refuseHandle _ _ _ (by simp)
    · refine Keeping.trans (keeping_setVolume fun hs => volumesSound_undefine hs hh fun x hx a ha hat => ?_) (keeping_answer _ _ (by simp))
      obtain ⟨-, m, hm⟩ := VolumesSound.target_medium hs hx ha
      rw [hat, hvol] at hm
      cases hm
  all_goals
    rename_i hentry
    obtain ⟨hh, -, -, -⟩ := chainEntry_ok hentry
    split
    · exact keeping_refuseHandle _ _ _ (by simp)
    · rename_i hfree
      simp only [Bool.or_eq_true, decide_eq_true_eq, not_or, Nat.not_lt, Nat.le_zero] at hfree
      exact Keeping.trans (keeping_setVolume fun hs => volumesSound_undefine hs hh (viewsOf_eq_zero hfree.2)) (keeping_answer _ _ (by simp))

theorem keeping_describe (handle : BitVec 6) : Keeping ⟨k + 1, f⟩ ⟨k, f⟩ s (s.describe c handle) := by
  unfold State.describe
  split
  · exact keeping_refuseChain ..
  · rename_i v _
    refine keeping_answer c _ ?_
    cases v
    · exact Nat.zero_le _
    · exact Nat.le_refl 15
    · show 5 ≤ 15
      decide

theorem keeping_setProfile (selector : BitVec 8) (m : MatchField) (a : AttributeField) :
    Keeping ⟨k + 1, f⟩ ⟨k, f⟩ s (s.setProfile c selector m a) := by
  unfold State.setProfile
  split
  · exact keeping_refuse _ _ (by simp)
  · split
    · exact keeping_refuse _ _ (by simp)
    · rename_i hgood
      refine Keeping.trans (keeping_setProfiles fun hs => profilesSound_setSlot hs _ fun x hx => ?_) (keeping_answer _ _ (by simp))
      cases hx
      exact profileSound_of_tests hgood

theorem keeping_clearProfile (selector : BitVec 8) : Keeping ⟨k + 1, f⟩ ⟨k, f⟩ s (s.clearProfile c selector) := by
  unfold State.clearProfile
  split
  · exact Keeping.trans (keeping_setProfiles fun hs => profilesSound_setSlot hs _ fun x hx => by cases hx) (keeping_answer _ _ (by simp))
  · split
    · refine Keeping.trans (keeping_setProfiles (v := { s.profiles with slots := .replicate 10 none }) fun hs => ⟨hs.default, fun i x hx => ?_⟩)
        (keeping_answer _ _ (by simp))
      simp at hx
    · exact keeping_refuse _ _ (by simp)

theorem keeping_setDefaults (a : AttributeField) : Keeping ⟨k + 1, f⟩ ⟨k, f⟩ s (s.setDefaults c a) := by
  unfold State.setDefaults
  split
  · exact keeping_refuse _ _ (by simp)
  · rename_i hgood
    exact Keeping.trans (keeping_setProfiles fun hs => by exact ⟨attributesSound_of_tests hgood, hs.slots⟩) (keeping_answer _ _ (by simp))

theorem slotBody_length (i : Nat) (p : Option Profile) : (slotBody i p).length ≤ 15 := by
  cases p
  · show 5 ≤ 15
    decide
  · show 5 ≤ 15
    decide

theorem keeping_readProfile (selector : BitVec 8) : Keeping ⟨k + 1, f⟩ ⟨k, f⟩ s (s.readProfile c selector) := by
  unfold State.readProfile
  split
  · exact keeping_answer c _ (slotBody_length ..)
  · split
    · exact keeping_answer _ _ (by simp)
    · exact keeping_refuse _ _ (by simp)

theorem keeping_probeProfile (b : BandField) : Keeping ⟨k + 1, f⟩ ⟨k, f⟩ s (s.probeProfile c b) := by
  unfold State.probeProfile
  split
  · exact keeping_refuseChain ..
  · exact keeping_answer _ _ (by simp)

end commands

end Sys2Proof.Machine

/-! What every step keeps, continued: the commands but RESTART. -/

namespace Sys2Proof.Machine

open State (Keeping)

section commands

variable {s : State} {k : Nat} {f : Multiset Nat} (c : Ctx)

/-! ## The drive commands (R3, R23, R24, R26, R87) -/

/-- A DRIVE CONFIG in range leaves a port in its ranges, the pass count capped by the new interval (R3). -/
theorem Port.sound_configure {p : Port} {v : ConfigField} (hv : configInRange v = true) : (p.configure v).Sound := by
  simp only [configInRange, Bool.and_eq_true, decide_eq_true_eq] at hv
  obtain ⟨⟨⟨⟨⟨⟨⟨hs1, hs2⟩, hi1⟩, hi2⟩, hm1⟩, hm2⟩, hr1⟩, hr2⟩ := hv
  have hkeep : ∀ q : Port, q.limits = ((v.settle.toNat, v.index.toNat, v.mark.toNat), v.interval.toNat, q.passCount) →
      q.passCount ≤ v.interval.toNat → q.Sound := by
    intro q hq hpass
    simp only [Port.limits, Prod.mk.injEq] at hq
    obtain ⟨⟨hs, hi, hm⟩, hr, -⟩ := hq
    unfold Port.Sound
    rw [hs, hi, hm, hr]
    exact ⟨⟨hs1, hs2⟩, ⟨hi1, hi2⟩, ⟨hm1, hm2⟩, ⟨hr1, hr2⟩, hpass⟩
  unfold Port.configure
  split
  · exact hkeep _ rfl (Nat.zero_le _)
  all_goals
    split
    · exact hkeep _ rfl (Nat.zero_le _)
    · exact hkeep _ rfl (Nat.min_le_right ..)

theorem keeping_driveConfig (p : Fin 4) (v : ConfigField) : Keeping ⟨k + 1, f⟩ ⟨k, f⟩ s (s.driveConfig c p v) := by
  unfold State.driveConfig
  dsimp only
  split
  · exact keeping_refuse _ _ (by simp)
  split
  · exact keeping_refuse _ _ (by simp)
  split
  · exact keeping_refuse _ _ (by simp)
  split
  · exact keeping_refuse _ _ (by simp)
  · rename_i hrange
    exact (keeping_updatePort fun _ => Port.sound_configure (by simpa using hrange)).trans (keeping_answer _ _ (by simp))

theorem keeping_park (p : Fin 4) : Keeping ⟨k + 1, f⟩ ⟨k, f⟩ s (s.park c p) := by
  unfold State.park
  dsimp only
  split
  · exact keeping_refuse _ _ (by simp)
  split
  · exact keeping_refuse _ _ (by simp)
  split
  · exact (keeping_answer _ _ (by simp)).trans (keeping_port Port.limits_startPark)
  · exact keeping_refuse _ _ (by simp)

theorem keeping_retension (p : Fin 4) : Keeping ⟨k + 1, f⟩ ⟨k, f⟩ s (s.retension c p) := by
  unfold State.retension
  dsimp only
  split
  · exact keeping_refuse _ _ (by simp)
  split
  · exact keeping_refuse _ _ (by simp)
  split
  · exact keeping_refuse _ _ (by simp)
  split
  · exact keeping_refuse _ _ (by simp)
  split
  · exact keeping_refuse _ _ (by simp)
  · exact (keeping_answer _ _ (by simp)).trans (keeping_port Port.limits_startRetension)

theorem keeping_resetJobs {h : Hand} : ∀ (js : List Job) (s : State), Keeping h h s (s.resetJobs js)
  | [], s => .refl s
  | j :: rest, _ => (keeping_stopJob j _).trans (keeping_resetJobs rest _)

theorem keeping_afterReset {h : Hand} (active : Option Job) : Keeping h h s (s.afterReset active) := by
  unfold State.afterReset
  split
  · exact keeping_afterStop _
  · exact .refl s

theorem keeping_driveReset (p : Fin 4) : Keeping ⟨k + 1, f⟩ ⟨k, f⟩ s (s.driveReset c p) := by
  unfold State.driveReset
  dsimp only
  split
  · exact keeping_refuse _ _ (by simp)
  · exact keeping_answer _ _ (by simp)
  all_goals
    exact (((keeping_port Port.limits_driveReset).trans (keeping_resetJobs ..)).trans (keeping_afterReset _)).trans (keeping_answer _ _ (by simp))

/-! ## The job commands (R58 to R61, R82 to R85, R97) -/

/-- Job open changes the entries alone (R59). -/
theorem openEntries_eq (size quorum : Nat) : ∀ (keys : List Key) (s : State), ∃ v, s.openEntries keys size quorum = s.setEntries v
  | [], s => ⟨s.entries, rfl⟩
  | key :: rest, s => by
    obtain ⟨v, hv⟩ : ∃ v, s.openEntry key size quorum = s.setEntries v := by
      unfold State.openEntry
      split <;> exact ⟨_, rfl⟩
    obtain ⟨w, hw⟩ := openEntries_eq size quorum rest (s.openEntry key size quorum)
    exact ⟨w, hw.trans (by rw [hv]; rfl)⟩

/-- A job opens where the job table and the sector reconciliation table have room and its band has no job; the place of its notice is reserved. -/
theorem keeping_openJob {r : Resolved} {found : Nat × Attributes} (hjobs : s.jobs.length < 8) (hband : s.bandJob r.handle r.cylinder r.head = none)
    (hroom : s.missingEntries r.bandKeys ≤ s.freeEntries) (hp : 1 ≤ s.link.freePlaces) :
    Keeping ⟨k + 1, f⟩ ⟨k + 1, f⟩ s (s.openJob c r found) := by
  unfold State.openJob
  dsimp only
  obtain ⟨v, hv⟩ := openEntries_eq r.medium.geometry.sizeCode found.2.quorum r.bandKeys s
  have hopened : Keeping ⟨k + 1, f⟩ ⟨k + 1, f⟩ s (s.openEntries r.bandKeys r.medium.geometry.sizeCode found.2.quorum) := by
    refine .of_tables (by rw [hv]; rfl) fun hs => keeping_openEntries _ _ _ _ ?_
    have hcount := hs.table.count
    unfold State.freeEntries Config.tableEntries at hroom
    omega
  refine hopened.trans ?_
  rw [hv]
  refine Keeping.trans (keeping_addJob fun hs => ⟨hjobs, fun x hx => ⟨hs.fresh x hx, fun hsame => ?_⟩, hs.next, Nat.zero_le _, nextId_lt .., ?_⟩)
    (keeping_reserve hp)
  · have hno := List.find?_eq_none.1 hband x hx
    simp only [Bool.and_eq_true, beq_iff_eq] at hno
    exact hno ⟨⟨hsame.1, hsame.2.1⟩, hsame.2.2⟩
  · have hfree := nextId_notMem (inUse := (s.jobs ++ [Job.opened s.nextJobId r c.level found c.queue c.tag]).map Job.id) (n := 8) s.nextJobId
      (by simp only [List.length_map, List.length_append, List.length_singleton]; omega) (by decide)
    exact fun x hx heq => hfree (heq ▸ List.mem_map_of_mem hx)

theorem keeping_readBand (hp : 1 ≤ s.link.freePlaces) (b : BandField) : Keeping ⟨k + 1, f⟩ ⟨k, f⟩ s (s.readBand c b) := by
  unfold State.readBand
  dsimp only
  split
  · exact keeping_refuseChain ..
  split
  · exact keeping_refuse _ _ (by simp)
  rename_i hjobs
  split
  · exact keeping_refuse _ _ (by simp)
  rename_i hband
  split
  · exact keeping_refuse _ _ (by simp)
  · rename_i hroom
    exact ((keeping_openJob c (Nat.lt_of_not_le hjobs) hband (Nat.le_of_not_lt hroom) hp).trans (keeping_answer c _ (by simp [acceptedBody]))).trans
      (keeping_offer _)

theorem keeping_cancelNow {h : Hand} (j : Job) : Keeping h h s (s.cancelNow j) :=
  ((keeping_decideEnding ..).trans (keeping_releaseOf _)).trans (keeping_finishJob _)

theorem keeping_cancelStream {h : Hand} (j : Job) : Keeping h h s (s.cancelStream j) := by
  unfold State.cancelStream
  dsimp only
  have hdecided := keeping_decideEnding (h := h) (s := s) j.id (.cancelled .host)
  split
  · exact (hdecided.trans (keeping_releaseOf _)).trans (keeping_checkDrained _)
  · split
    · exact hdecided
    · split
      · exact hdecided.trans (keeping_endPassCancelled _)
      · exact hdecided.trans (keeping_updateChannel (by exact fun _ => rfl))

theorem keeping_cancel (id : BitVec 8) : Keeping ⟨k + 1, f⟩ ⟨k, f⟩ s (s.cancel c id) := by
  unfold State.cancel
  split
  · exact keeping_refuse _ _ (by simp)
  split
  · exact keeping_refuse _ _ (by simp)
  split
  · exact keeping_refuse _ _ (by simp)
  dsimp only
  split
  · exact (keeping_answer _ _ (by simp)).trans (keeping_cancelStream _)
  all_goals exact (keeping_answer _ _ (by simp)).trans (keeping_cancelNow _)

theorem keeping_hold (id : BitVec 8) (n : BitVec 5) : Keeping ⟨k + 1, f⟩ ⟨k, f⟩ s (s.hold c id n) := by
  unfold State.hold
  dsimp only
  split
  · exact keeping_refuse _ _ (by simp)
  split
  · exact keeping_refuse _ _ (by simp)
  split
  · exact keeping_refuse _ _ (by simp)
  split
  · exact keeping_refuse _ _ (by simp)
  split
  · exact keeping_answer _ _ (by simp)
  · exact Keeping.trans (keeping_updateJob (by exact fun _ => ⟨rfl, rfl, rfl, rfl, fun hl => hl⟩)) (keeping_answer _ _ (by simp))

/-! ## The record commands (R171 to R184) -/

/-- An entry record has 3 words, and 3 more for each candidate (R205). -/
theorem entryWords_length (e : Entry) (via : Option Via) (w : Nat) : (e.words via w).length = 3 + 3 * e.candidates.length := by
  unfold Entry.words
  rw [List.length_append, List.length_flatMap, show (e.candidates.map fun x => (x.words w).length) = e.candidates.map fun _ => 3 from rfl,
    List.map_const', List.sum_replicate]
  simp [Nat.mul_comm]

theorem keeping_answerEntry {e : Entry} (he : e ∈ s.entries) (via : Option Via) (w : Nat) :
    Keeping ⟨k + 1, f⟩ ⟨k, f⟩ s (s.answer c .done (e.words via w)) :=
  keeping_answerWithin c _ fun hs => by
    have := hs.table.candidates e he
    rw [entryWords_length]
    omega

theorem keeping_lookup (key : KeyField) (w : BitVec 8) : Keeping ⟨k + 1, f⟩ ⟨k, f⟩ s (s.lookup c key w) := by
  unfold State.lookup
  split
  · exact keeping_refuseChain ..
  split
  · exact keeping_refuseKey _ _ _ (by simp)
  · rename_i he
    exact keeping_answerEntry c (entry_mem he).1 ..

theorem keeping_find (key : KeyField) (w : BitVec 8) (states : Word) : Keeping ⟨k + 1, f⟩ ⟨k, f⟩ s (s.find c key w states) := by
  unfold State.find
  split
  · exact keeping_refuseChain ..
  split
  · exact keeping_refuseKey _ _ _ (by simp)
  split
  · rename_i he
    exact keeping_answerEntry c (List.mem_of_find?_eq_some he) ..
  · exact keeping_answer _ _ (by simp)

theorem keeping_fetch (key : KeyField) (n : BitVec 8) : Keeping ⟨k + 1, f⟩ ⟨k, f⟩ s (s.fetch c key n) := by
  unfold State.fetch
  split
  · exact keeping_refuseChain ..
  split
  · exact keeping_refuseKey _ _ _ (by simp)
  split
  · exact keeping_refuseKey _ _ _ (by simp)
  split
  · exact keeping_refusePortBusy ..
  · rename_i hnone
    refine ((keeping_setPinned _ _).trans (keeping_setTransfer ?_)).trans (keeping_answer c _ (by simp [Candidate.report]))
    show _ = (↑(inboundOf s.transfer) : Multiset Nat) + f
    rw [hnone]
    rfl

theorem keeping_choose (key : KeyField) (n : BitVec 8) : Keeping ⟨k + 1, f⟩ ⟨k, f⟩ s (s.choose c key n) := by
  unfold State.choose
  split
  · exact keeping_refuseChain ..
  split
  · exact keeping_refuseKey _ _ _ (by simp)
  dsimp only
  split
  · exact keeping_refuseKey _ _ _ (by simp)
  split
  · exact keeping_refuseKey _ _ _ (by simp)
  split
  · exact keeping_refuseKey _ _ _ (by simp)
  · exact (keeping_updateEntry_same fun e => ⟨(amend_sameList e _ _).1, (amend_sameList e _ _).held⟩).trans
      (keeping_answer c _ (by simp [Candidate.report]))

theorem claimFrame_eq {x : Nat} {t : State} (hc : s.claimFrame = some (x, t)) : s.pool = x :: t.pool ∧ t = s.setPool t.pool := by
  unfold State.claimFrame at hc
  split at hc
  · simp at hc
  · rename_i hp
    cases hc
    exact ⟨hp, rfl⟩

theorem keeping_amend (key : KeyField) (check : Word) : Keeping ⟨k + 1, f⟩ ⟨k, f⟩ s (s.amend c key check) := by
  unfold State.amend
  split
  · exact keeping_refuseChain ..
  split
  · exact keeping_refuseKey _ _ _ (by simp)
  split
  · exact keeping_refuseKey _ _ _ (by simp)
  split
  · exact keeping_refuseKey _ _ _ (by simp)
  split
  · exact keeping_refusePortBusy ..
  rename_i hnone
  split
  · exact keeping_refuseKey _ _ _ (by simp)
  · rename_i hclaim
    refine ((keeping_claimFrame hclaim).trans (keeping_setTransfer ?_)).trans (keeping_answer _ _ (by simp))
    rw [(claimFrame_eq hclaim).2, setPool_transfer, hnone]
    show {_} + f = 0 + (f + {_})
    rw [zero_add, add_comm]
    rfl

theorem keeping_retire (key : KeyField) : Keeping ⟨k + 1, f⟩ ⟨k, f⟩ s (s.retire c key) := by
  unfold State.retire
  split
  · exact keeping_refuseChain ..
  split
  · exact keeping_refuseKey _ _ _ (by simp)
  rename_i he
  split
  · exact keeping_refuseKey _ _ _ (by simp)
  split
  · exact keeping_refuseKey _ _ _ (by simp)
  · exact (keeping_removeEntries (List.singleton_sublist.2 (entry_mem he).1)).trans (keeping_answer _ _ (by simp))

theorem keeping_retireWhere (name : Word) (p : Entry → Bool) (scope : BitVec 8) :
    Keeping ⟨k + 1, f⟩ ⟨k, f⟩ s (s.retireWhere c name p scope) :=
  (keeping_removeEntries (List.filter_sublist.trans List.filter_sublist)).trans (keeping_answer _ _ (by simp))

theorem keeping_retireBand (b : BandField) (scope : BitVec 8) : Keeping ⟨k + 1, f⟩ ⟨k, f⟩ s (s.retireBand c b scope) := by
  unfold State.retireBand
  split
  · exact keeping_refuseChain ..
  split
  · exact keeping_refuse _ _ (by simp)
  · exact keeping_retireWhere ..

theorem keeping_retireVolume (handle : BitVec 6) (scope : BitVec 8) : Keeping ⟨k + 1, f⟩ ⟨k, f⟩ s (s.retireVolume c handle scope) := by
  unfold State.retireVolume
  split
  · exact keeping_refuseChain ..
  split
  · exact keeping_refuse _ _ (by simp)
  · exact keeping_retireWhere ..

theorem synthArrive_body {r : SynthRequest} {code : RefusalCode} {body : List Word} (hr : s.synthArrive r = .inr (code, body)) :
    body.length ≤ 1 := by
  unfold State.synthArrive at hr
  split at hr
  · exact judgeStart_body hr
  · cases hr

theorem keeping_synthesize (key : KeyField) : Keeping ⟨k + 1, f⟩ ⟨k, f⟩ s (s.synthesize c key) := by
  unfold State.synthesize
  split
  · exact keeping_refuseChain ..
  split
  · exact keeping_refuse _ _ (by simp)
  split
  · exact keeping_refuse _ _ (by simp)
  split
  · exact keeping_refuse _ _ (by simp)
  split
  · exact keeping_refuse _ _ (by simp)
  split
  · exact keeping_refuse _ _ (by simp)
  split
  · exact keeping_refuse _ _ (by simp)
  split
  · rename_i harrived
    exact keeping_synthArrive harrived
  · rename_i hfails
    refine keeping_answerSynth _ _ _ _ fun code' body' he => ?_
    cases he
    exact (synthArrive_body hfails).trans (by decide)

/-! ## The link commands (R167, R188, R197, R198) -/

theorem keeping_abortTransfer : Keeping ⟨k + 1, f⟩ ⟨k, f⟩ s (s.abortTransfer c) := by
  unfold State.abortTransfer
  split
  · exact keeping_refuse _ _ (by simp)
  rename_i ht
  split
  · exact keeping_refuse _ _ (by simp)
  · exact (keeping_endTransferEarly ht _).trans (keeping_answer _ _ (by simp))

theorem keeping_setTransferLevel {level : BitVec 3} (hm : malformed (.setTransferLevel level) = false) :
    Keeping ⟨k + 1, f⟩ ⟨k, f⟩ s (s.setTransferLevel c level) := by
  have hlevel : level.toNat ≤ 3 := by simpa [malformed] using hm
  exact Keeping.trans (keeping_setLink (l := { s.link with transferLevel := level.toNat }) rfl
      fun hl => ⟨hl.places, hl.console, hl.transfer, hl.responses, hl.wordsRead, hl.empty, hlevel⟩)
    (keeping_answer c .done (body := [numberWord s.link.transferLevel]) (by simp))

theorem packFours_length : ∀ l : List Nat, (packFours l).length ≤ (l.length + 3) / 4
  | [] => Nat.zero_le _
  | [_] | [_, _] | [_, _, _] => by simp [packFours]
  | a :: b :: d :: e :: rest => by
    have := packFours_length rest
    simp only [packFours, List.length_cons]
    omega

theorem jobBody_length (j : Job) : j.body.length ≤ 3 + (j.layout.length + 3) / 4 := by
  have := packFours_length j.layout
  simp only [Job.body, List.length_append, List.length_cons, List.length_nil]
  omega

theorem closingBody_length (r : Option ClosingRecord) : (closingBody r).length ≤ 9 := by
  cases r with
  | none => simp [closingBody]
  | some r => cases ho : r.outcome <;> simp [closingBody, ClosingOutcome.body, ho]

theorem keeping_status (part n : BitVec 8) : Keeping ⟨k + 1, f⟩ ⟨k, f⟩ s (s.status c part n) := by
  unfold State.status
  split
  · exact keeping_answer c _ (by simp [State.summaryBody])
  · exact keeping_answer c _ (by simp [Port.body])
  · exact keeping_answer c _ (by simp [State.channelsBody, Channel.body])
  · split
    · rename_i j hj
      refine keeping_answerWithin c _ fun hs => ?_
      have hlayout := hs.jobs.layouts j (job_mem hj).1
      have := jobBody_length j
      omega
    · exact keeping_refuse _ _ (by simp)
  · refine keeping_answer c _ ?_
    have := closingBody_length s.closing
    have : (transferBody s.transfer).length = 4 := by cases s.transfer <;> rfl
    rw [List.length_append]
    omega
  · exact keeping_answer c _ (by simp [State.framesBody])

theorem keeping_clearFlags (flags : BitVec 6) : Keeping ⟨k + 1, f⟩ ⟨k, f⟩ s (s.clearFlags c flags) := by
  unfold State.clearFlags
  split
  · exact keeping_refuse _ _ (by simp)
  · exact Keeping.trans (keeping_setLink (l := s.link.clearFlags flags) rfl
        fun hl => ⟨hl.places, hl.console, hl.transfer, hl.responses, hl.wordsRead, hl.empty, hl.level⟩)
      (keeping_answer c .done (body := s.link.flagWords) (by simp [Link.flagWords]))

end commands

end Sys2Proof.Machine

/-! What every step keeps, concluded: RESTART, the intake, the link port's accesses, the reports, the timers and the stream events. -/

namespace Sys2Proof.Machine

open State (Keeping)

/-! ## RESTART (R88, R154, R170, R199)

The ABANDONED refusals post while the unit still holds its requests, and the unit is left only later. No part of RESTART before that looks
at the unit: the proof leaves the unit first, with its requests' places and its frame in hand, and posts the refusals then. -/

section restart

variable {s : State} {h : Hand} {k : Nat} {f : Multiset Nat}

theorem abandon_setSynth (u : Synth) : ∀ (l : List SynthRequest) (s : State), (s.setSynth u).abandon l = (s.abandon l).setSynth u
  | [], _ => rfl
  | r :: rest, s => by
    unfold State.abandon
    cases r.source with
    | command q tag via => exact abandon_setSynth u rest (s.refuse (synthCtx q tag) .abandoned [])
    | close id => exact abandon_setSynth u rest s

theorem postNotice_setSynth (u : Synth) (id : Nat) : (s.setSynth u).postNotice id = (s.postNotice id).setSynth u := by
  unfold State.postNotice
  rw [show (s.setSynth u).job id = s.job id from rfl]
  cases s.job id with
  | none => rfl
  | some j =>
    cases hj : j.ending with
    | none => simp only [hj]
    | some e => simp only [hj]; rfl

theorem endJobs_setSynth (u : Synth) : ∀ (js : List Job) (s : State), (s.setSynth u).endJobs js = (s.endJobs js).setSynth u
  | [], _ => rfl
  | j :: rest, s => by
    unfold State.endJobs
    rw [show (s.setSynth u).updateJob j.id (fun j => j.decide (.cancelled .restart))
        = (s.updateJob j.id fun j => j.decide (.cancelled .restart)).setSynth u from rfl, postNotice_setSynth]
    exact endJobs_setSynth u rest _

theorem stopTransfer_setSynth (u : Synth) : (s.setSynth u).stopTransfer = s.stopTransfer.setSynth u := by
  unfold State.stopTransfer
  rw [show (s.setSynth u).transfer = s.transfer from rfl]
  cases s.transfer with
  | none => rfl
  | some t =>
    simp only [State.endTransferEarly]
    cases t.direction <;> rfl

/-- The part of RESTART between the empty command queues and the idle unit. -/
def State.endWork (s : State) (requests : List SynthRequest) : State := ((s.abandon requests).endJobs s.jobs).restartChannels.stopTransfer

theorem endWork_setSynth (u : Synth) (l : List SynthRequest) : (s.setSynth u).endWork l = (s.endWork l).setSynth u := by
  unfold State.endWork
  rw [abandon_setSynth, setSynth_jobs, endJobs_setSynth]
  exact stopTransfer_setSynth (s := ((s.abandon l).endJobs s.jobs).restartChannels) u

theorem endWork_synth (l : List SynthRequest) : (s.endWork l).synth = s.synth := by
  have hset : s.endWork l = (s.endWork l).setSynth s.synth := endWork_setSynth s.synth l
  rw [hset, setSynth_synth]

theorem abandon_jobs : ∀ (l : List SynthRequest) (s : State), (s.abandon l).jobs = s.jobs
  | [], _ => rfl
  | r :: rest, s => by
    unfold State.abandon
    cases r.source <;> exact abandon_jobs rest _

theorem keeping_abandon : ∀ (l : List SynthRequest) (s : State) {k : Nat},
    Keeping ⟨k + l.countP (fun r => r.source.isCommand), f⟩ ⟨k, f⟩ s (s.abandon l)
  | [], s, _ => .refl s
  | r :: rest, s, k => by
    unfold State.abandon
    rw [List.countP_cons]
    cases hr : r.source with
    | command q tag via =>
      rw [show (SynthSource.command q tag via).isCommand = true from rfl, if_pos rfl, ← add_assoc]
      exact (keeping_refuse (synthCtx q tag) .abandoned (by simp)).trans (keeping_abandon rest _)
    | close id =>
      rw [show (SynthSource.close id).isCommand = false from rfl, if_neg (by decide), add_zero]
      exact keeping_abandon rest s

theorem keeping_endJobs : ∀ (js : List Job) (s : State), Keeping h h s (s.endJobs js)
  | [], s => .refl s
  | _ :: rest, _ => ((keeping_updateJob (sameSeat_decide _)).trans (keeping_postNotice _)).trans (keeping_endJobs rest _)

theorem keeping_stopTransfer : Keeping h h s s.stopTransfer := by
  unfold State.stopTransfer
  split
  · rename_i ht
    exact keeping_endTransferEarly ht _
  · exact .refl s

theorem keeping_restartChannels : Keeping h h s s.restartChannels :=
  (((keeping_updateChannel landing_restart).trans (keeping_updateChannel landing_restart)).trans (keeping_setWaits _)).trans (keeping_setInput _)

theorem keeping_restartPorts : Keeping h h s s.restartPorts :=
  keeping_setPorts fun hp q => by
    have hq := Port.sound_of_limits (s.port q).limits_restart (hp q)
    fin_cases q <;> exact hq

theorem keeping_endWork (l : List SynthRequest) :
    Keeping ⟨k + l.countP (fun r => r.source.isCommand), f⟩ ⟨k, f⟩ s (s.endWork l) :=
  (((keeping_abandon l s).trans (keeping_endJobs ..)).trans keeping_restartChannels).trans keeping_stopTransfer

/-- The unit is left: what it held is in hand. -/
theorem keeping_leaveSynth : Keeping ⟨k, f⟩ ⟨k + (s.synth.inHand.toList ++ s.synth.wait).countP (fun r => r.source.isCommand),
    f + ↑s.synth.workFrame.toList⟩ s (s.setSynth { s.synth with inHand := none, wait := [], workFrame := none, inputs := none }) := by
  refine keeping_setSynth fun _ => ⟨⟨rfl, rfl⟩, ?_, ?_⟩
  · show 0 + (f + _) = _
    rw [zero_add, add_comm]
  · simp only [Synth.commandRequests, List.countP_append, Option.toList_none, List.countP_nil]
    omega

theorem keeping_stopWork :
    Keeping ⟨k, f⟩ ⟨k, f⟩ s (s.endWork (s.synth.inHand.toList ++ s.synth.wait)).stopSynth := by
  have hwork := (keeping_leaveSynth (k := k) (f := f) (s := s)).trans (keeping_endWork _)
  rw [endWork_setSynth] at hwork
  unfold State.stopSynth
  dsimp only
  rw [endWork_synth]
  cases hframe : s.synth.workFrame with
  | none =>
    rw [hframe, Option.toList_none, Multiset.coe_nil, add_zero] at hwork
    exact hwork
  | some x =>
    rw [hframe, Option.toList_some, Multiset.coe_singleton] at hwork
    exact hwork.trans (keeping_returnFrame x)

theorem restart_eq (s : State) (c : Ctx) :
    s.restart c = ((((s.setLink s.link.restart).endWork (s.synth.inHand.toList ++ s.synth.wait)).stopSynth).restartPorts).answer c .done [] := by
  unfold State.restart State.endWork
  dsimp only
  rw [abandon_jobs]
  rfl

theorem keeping_restart (c : Ctx) : Keeping ⟨k + 1, f⟩ ⟨k, f⟩ s (s.restart c) := by
  rw [restart_eq]
  have hlink : Keeping ⟨k + 1, f⟩ ⟨k + 1, f⟩ s (s.setLink s.link.restart) :=
    keeping_setLink rfl fun hl => ⟨hl.places, ⟨Nat.zero_le _, hl.console.2⟩, ⟨Nat.zero_le _, hl.transfer.2⟩, hl.responses, hl.wordsRead, hl.empty,
      hl.level⟩
  exact ((hlink.trans keeping_stopWork).trans keeping_restartPorts).trans (keeping_answer _ _ (by simp))

end restart

/-! ## The intake (R187, R189, R190) -/

section intake

variable {s : State} {k : Nat} {f : Multiset Nat}

theorem keeping_perform (c : Ctx) {command : HostCommand} (hm : malformed command = false) (hp : 1 ≤ s.link.freePlaces) :
    Keeping ⟨k + 1, f⟩ ⟨k, f⟩ s (s.perform c command) := by
  cases command with
  | unknown => exact keeping_refuse _ _ (by simp)
  | driveConfig => exact keeping_driveConfig ..
  | park => exact keeping_park ..
  | retension => exact keeping_retension ..
  | driveReset => exact keeping_driveReset ..
  | mount => exact keeping_mount c hm
  | defineView => exact keeping_defineView c hm
  | confirm => exact keeping_confirm ..
  | unmount => exact keeping_unmount ..
  | describe => exact keeping_describe ..
  | setProfile => exact keeping_setProfile ..
  | clearProfile => exact keeping_clearProfile ..
  | setDefaults => exact keeping_setDefaults ..
  | readProfile => exact keeping_readProfile ..
  | probeProfile => exact keeping_probeProfile ..
  | readBand => exact keeping_readBand c hp _
  | cancel => exact keeping_cancel ..
  | hold => exact keeping_hold ..
  | lookup => exact keeping_lookup ..
  | find => exact keeping_find ..
  | fetch => exact keeping_fetch ..
  | choose => exact keeping_choose ..
  | amend => exact keeping_amend ..
  | retire => exact keeping_retire ..
  | retireBand => exact keeping_retireBand ..
  | retireVolume => exact keeping_retireVolume ..
  | synthesize => exact keeping_synthesize ..
  | abortTransfer => exact keeping_abortTransfer c
  | setTransferLevel => exact keeping_setTransferLevel c hm
  | status => exact keeping_status ..
  | clearFlags => exact keeping_clearFlags ..
  | restart => exact keeping_restart c

theorem keeping_judge (c : Ctx) (command : HostCommand) (hp : 1 ≤ s.link.freePlaces) : Keeping ⟨k + 1, f⟩ ⟨k, f⟩ s (s.judge c command) := by
  unfold State.judge
  split
  · exact keeping_refuse _ _ (by simp)
  split
  · exact keeping_refuse _ _ (by simp)
  split
  · exact keeping_refuse _ _ (by simp)
  · rename_i hm _
    exact keeping_perform c (by simpa using hm) hp

/-- The laws of a lane. -/
abbrev Lane.Within (v : Lane) : Prop := v.records.length ≤ 8 ∧ v.assembly.length ≤ 3

theorem Link.Laws.lane {l : Link} (hl : l.Laws) (q : Queue) : (l.lane q).Within := by
  cases q
  · exact hl.console
  · exact hl.transfer

theorem Link.Laws.setLane {l : Link} (hl : l.Laws) {q : Queue} {v : Lane} (hv : v.Within) : (l.setLane q v).Laws := by
  cases q
  · exact ⟨hl.places, hv, hl.transfer, hl.responses, hl.wordsRead, hl.empty, hl.level⟩
  · exact ⟨hl.places, hl.console, hv, hl.responses, hl.wordsRead, hl.empty, hl.level⟩

theorem setLane_reserved (l : Link) (q : Queue) (v : Lane) : (l.setLane q v).reserved = l.reserved := by cases q <;> rfl

theorem setLane_responses (l : Link) (q : Queue) (v : Lane) : (l.setLane q v).responses = l.responses := by cases q <;> rfl

theorem keeping_setLane {h : Hand} {q : Queue} {v : Lane} (hv : (s.link.lane q).Within → v.Within) :
    Keeping h h s (s.setLink (s.link.setLane q v)) :=
  keeping_setLink (setLane_reserved ..) fun hl => hl.setLane (hv (hl.lane q))

/-- One taking keeps the laws: the place it reserves is the one its command answers through. -/
theorem keeping_take {h : Hand} {q : Queue} {r : Record} {rest : List Record} (hp : Config.intakePlaces ≤ s.link.freePlaces)
    (hr : (s.link.lane q).records = r :: rest) : Keeping h h s (s.take q r rest) := by
  have hfree : 2 ≤ 32 - (s.link.responses.length + s.link.reserved) := hp
  let l := s.link.setLane q { s.link.lane q with records := rest }
  have hsame : l.responses = s.link.responses ∧ l.reserved = s.link.reserved := ⟨setLane_responses .., setLane_reserved ..⟩
  have htaken : Keeping h h s (s.setLink { l with preference := otherQueue q }) := by
    refine keeping_setLink hsame.2 fun hl => ?_
    have hlane := hl.lane q
    rw [Lane.Within, hr, List.length_cons] at hlane
    obtain ⟨hp', hc, ht, hres, hw, he, hlv⟩ := hl.setLane (q := q) (v := { s.link.lane q with records := rest }) ⟨by dsimp only; omega, hlane.2⟩
    exact ⟨hp', hc, ht, hres, hw, he, hlv⟩
  have hplaces : 1 ≤ (s.setLink { l with preference := otherQueue q }).link.freePlaces := by
    show 1 ≤ 32 - (l.responses.length + l.reserved)
    rw [hsame.1, hsame.2]
    omega
  obtain ⟨k, f⟩ := h
  refine (htaken.trans (keeping_reserve hplaces)).trans (keeping_judge _ _ ?_)
  show 1 ≤ 32 - (l.responses.length + (l.reserved + 1))
  rw [hsame.1, hsame.2]
  omega

theorem nextRecord_records {l : Link} {q : Queue} {r : Record} {rest : List Record} (hn : l.nextRecord = some (q, r, rest)) :
    (l.lane q).records = r :: rest := by
  unfold Link.nextRecord at hn
  split at hn
  · rename_i hr
    cases hn
    exact hr
  · split at hn
    · rename_i hr
      cases hn
      exact hr
    · cases hn

theorem keeping_intakeLoop {h : Hand} : ∀ (n : Nat) (s : State), Keeping h h s (s.intakeLoop n)
  | 0, s => .refl s
  | n + 1, s => by
    unfold State.intakeLoop
    split
    · rename_i hp
      split
      · rename_i hn
        exact (keeping_take hp (nextRecord_records hn)).trans (keeping_intakeLoop n _)
      · exact .refl s
    · exact .refl s

theorem keeping_intake {h : Hand} : Keeping h h s s.intake := keeping_intakeLoop _ s

theorem keeping_complete {h : Hand} (q : Queue) (r : Record) : Keeping h h s (s.complete q r) := by
  refine Keeping.trans ?_ keeping_intake
  unfold Link.joinRecord
  dsimp only
  split
  · rename_i hroom
    refine keeping_setLane fun hl => ⟨?_, hl.2⟩
    show (_ ++ [r]).length ≤ 8
    rw [List.length_append, List.length_singleton]
    exact hroom
  · exact keeping_setLink rfl fun hl => ⟨hl.places, hl.console, hl.transfer, hl.responses, hl.wordsRead, hl.empty, hl.level⟩

theorem keeping_submit {h : Hand} (q : Queue) (tag : BitVec 8) (command : HostCommand) : Keeping h h s (s.submit q tag command) :=
  keeping_complete ..

/-! ## The link port's accesses (R187, R192) -/

theorem keeping_writeQueue {h : Hand} (q : Queue) (w : Word) : Keeping h h s (s.writeQueue q w) := by
  unfold State.writeQueue
  dsimp only
  split
  · exact Keeping.trans (keeping_setLane (v := { s.link.lane q with assembly := [] }) fun hl => ⟨hl.1, Nat.zero_le _⟩) (keeping_complete ..)
  · rename_i hnot
    refine keeping_setLane fun hl => ⟨hl.1, ?_⟩
    show (_ ++ [w]).length ≤ 3
    rw [List.length_append, List.length_singleton]
    have hle := hl.2
    have hne : (s.link.lane q).assembly.length ≠ 3 := fun h3 => by
      obtain ⟨a, b, d, habd⟩ := List.length_eq_three.1 h3
      exact hnot a b d habd
    omega

theorem keeping_readResponse {h : Hand} : Keeping h h s s.readResponse := by
  unfold State.readResponse
  split
  · exact keeping_putBus 0
  · rename_i r rest hr
    dsimp only
    have hr' : (s.putBus (r.getD s.link.wordsRead 0)).link.responses = r :: rest := hr
    split
    · refine Keeping.trans ((keeping_putBus (r.getD s.link.wordsRead 0)).trans ?_) keeping_intake
      refine keeping_setLink rfl fun hl => ⟨?_, hl.console, hl.transfer, fun x hx => ?_, fun x hx => ?_, fun _ => rfl, hl.level⟩
      · have := hl.places
        rw [hr', List.length_cons] at this
        dsimp only
        omega
      · exact hl.responses x (by rw [hr']; exact List.mem_cons_of_mem _ hx)
      · have := (hl.responses x (by rw [hr']; exact List.mem_cons_of_mem _ (List.mem_of_mem_head? hx))).1
        dsimp only
        omega
    · rename_i hmore
      refine (keeping_putBus _).trans (keeping_setLink rfl fun hl => ⟨hl.places, hl.console, hl.transfer, hl.responses, fun x hx => ?_, fun hnil => ?_,
        hl.level⟩)
      · dsimp only at hx
        rw [hr', List.head?_cons, Option.some.injEq] at hx
        subst hx
        exact Nat.lt_of_not_le hmore
      · dsimp only at hnil
        rw [hr'] at hnil
        cases hnil

end intake

/-! ## The drives' reports and the timers -/

section reports

variable {s : State} {h : Hand} {p : Fin 4}

theorem keeping_readyReport : Keeping h h s (s.readyReport p) := by
  unfold State.readyReport
  split
  · exact .refl s
  · exact (keeping_port Port.limits_readyReport).trans (keeping_checkArrival p)

theorem keeping_notReadyReport : Keeping h h s (s.notReadyReport p) := by
  unfold State.notReadyReport
  split
  · exact .refl s
  · exact keeping_port fun _ => rfl

theorem keeping_clearPresent : Keeping h h s (s.clearPresent p) := by
  unfold State.clearPresent
  split
  · exact keeping_setPresent fun _ _ hb => by cases hb
  · exact .refl s

theorem keeping_mediaChange : Keeping h h s (s.mediaChange p) := by
  unfold State.mediaChange
  dsimp only
  split
  · exact .refl s
  · have hflag : Keeping h h s (s.setMediaChanged p) :=
      keeping_setLink rfl fun hl => ⟨hl.places, hl.console, hl.transfer, hl.responses, hl.wordsRead, hl.empty, hl.level⟩
    have hchanged := (hflag.trans (keeping_clearPresent (p := p))).trans (keeping_updatePort (p := p) Port.sound_mediaChange)
    split
    · exact (hchanged.trans (keeping_stopJob ..)).trans (keeping_afterStop _)
    · exact hchanged.trans (keeping_offer p)

theorem keeping_atChannel {g : State → ChannelName → State} (hg : ∀ s c, Keeping h h s (g s c)) : Keeping h h s (s.atChannel p g) := by
  unfold State.atChannel
  split
  · exact hg ..
  · exact .refl s

/-- A report that restarts the watchdog and reaches the granted channel. -/
theorem keeping_watched {g : State → ChannelName → State} (hg : ∀ s c, Keeping h h s (g s c)) (b : Bool) :
    Keeping h h s (if b then (s.updatePort p Port.restartWatchdog).atChannel p g else s) := by
  split
  · exact (keeping_port Port.limits_restartWatchdog).trans (keeping_atChannel hg)
  · exact .refl s

theorem keeping_track0 : Keeping h h s (s.track0 p) := by
  unfold State.track0
  split
  · exact (keeping_port Port.limits_endRecalibration).trans (keeping_checkArrival p)
  split
  · exact (keeping_port Port.limits_endPark).trans (keeping_offer p)
  · exact .refl s

theorem keeping_positionedReport : Keeping h h s (s.positionedReport p) := by
  unfold State.positionedReport
  split
  · exact Keeping.trans (keeping_port (by exact fun _ => rfl)) (keeping_checkArrival p)
  · exact .refl s

theorem keeping_startReport : Keeping h h s (s.startReport p) := by
  unfold State.startReport
  split
  · exact (keeping_port Port.limits_endPark).trans (keeping_offer p)
  · exact .refl s

theorem keeping_retensionComplete : Keeping h h s (s.retensionComplete p) := by
  unfold State.retensionComplete
  dsimp only
  split
  · have hended := keeping_updatePort (h := h) (s := s) (p := p) Port.sound_endRetension
    split
    · exact hended.trans (keeping_positionJob _)
    · exact hended.trans (keeping_offer p)
  · exact .refl s

theorem keeping_stepExpiry : Keeping h h s (s.stepExpiry p) := by
  unfold State.stepExpiry
  split
  · exact keeping_port Port.limits_stepDue
  · exact .refl s

theorem keeping_settleExpiry : Keeping h h s (s.settleExpiry p) := by
  unfold State.settleExpiry
  split
  · exact Keeping.trans (keeping_port (by exact fun _ => rfl)) (keeping_checkArrival p)
  · exact .refl s

theorem keeping_failWaiting (states : List JobState) (reason : FailReason) : Keeping h h s (s.failWaiting p states reason) := by
  unfold State.failWaiting
  split
  · split
    · exact (keeping_stopJob ..).trans (keeping_afterStop _)
    · exact .refl s
  · exact .refl s

theorem keeping_positionOvertime : Keeping h h s (s.positionOvertime p) := by
  unfold State.positionOvertime
  split
  · exact Keeping.trans (keeping_port (by exact fun q => (Port.limits_loseHead _).trans (q.limits_enterFaulted .positionOvertime)))
      (keeping_failWaiting ..)
  · exact .refl s

theorem keeping_watchdogExpiry : Keeping h h s (s.watchdogExpiry p) := by
  unfold State.watchdogExpiry
  split
  · split
    · exact keeping_endPassFaulted _
    · exact keeping_port Port.limits_endStream
  · exact .refl s

theorem keeping_parkOvertime : Keeping h h s (s.parkOvertime p) := by
  unfold State.parkOvertime
  split
  · exact keeping_port (by exact fun q => (Port.limits_stopTape _).trans (q.limits_enterFaulted .parkOvertime))
  · exact .refl s

theorem keeping_retensionExpiry : Keeping h h s (s.retensionExpiry p) := by
  unfold State.retensionExpiry
  split
  · exact Keeping.trans (keeping_port (by exact fun q => (Port.limits_stopTape _).trans (q.limits_enterFaulted _))) (keeping_failWaiting ..)
  · exact .refl s

/-! ## The reconciler and the synthesis unit (R123, R148) -/

theorem keeping_takeReading : Keeping h h s s.takeReading := by
  unfold State.takeReading
  split
  · exact .refl s
  · dsimp only
    split
    · exact ((keeping_setInput _).trans (keeping_reconcile _)).trans (keeping_checkDrained _)
    · exact (keeping_setInput _).trans (keeping_reconcile _)

/-- A vote that ran does not end as a request refused at its start. -/
theorem endVote_ne_atStart (r : SynthRequest) (inputs : List SynthInput) (frame : Nat) (code : RefusalCode) (body : List Word) :
    (s.endVote r inputs frame).2 ≠ .atStart code body := by
  unfold State.endVote State.claimPlacing State.placeSynth
  dsimp only
  repeat' split
  all_goals exact nofun

theorem keeping_voteEnd : Keeping h h s s.voteEnd := by
  unfold State.voteEnd
  split
  · rename_i hr _ hf
    obtain ⟨k, f⟩ := h
    exact ((keeping_endVote _ hr hf).trans (keeping_reportSynth _ _ fun code body he => (endVote_ne_atStart _ _ _ code body he).elim)).trans keeping_serveNext
  · exact .refl s

end reports

end Sys2Proof.Machine

/-! What every step keeps: the step itself, and the values of both resets. -/

namespace Sys2Proof.Machine

open State (Keeping)

section step

variable {s : State} {h : Hand}

/-- Every command and event but the two resets keeps the laws, whatever is in hand. -/
theorem keeping_exec {i : Instr} (hi : i ∉ [Instr.powerOn, Instr.resetLine]) : ∃ t, exec i s = .next t ∧ Keeping h h s t := by
  cases i with
  | powerOn => exact absurd (by simp) hi
  | resetLine => exact absurd (by simp) hi
  | commandQueueWrite => exact ⟨_, rfl, keeping_writeQueue ..⟩
  | responseQueueRead => exact ⟨_, rfl, keeping_readResponse⟩
  | dataPortRead => exact ⟨_, rfl, keeping_portRead⟩
  | dataPortWrite => exact ⟨_, rfl, keeping_portWrite _⟩
  | notifyEnableWrite w =>
    exact ⟨_, rfl, keeping_setLink (l := { s.link with enables := w.extractLsb' 0 5 }) rfl
      fun hl => ⟨hl.places, hl.console, hl.transfer, hl.responses, hl.wordsRead, hl.empty, hl.level⟩⟩
  | registerWrite => exact ⟨_, rfl, .refl s⟩
  | unknownCommand | driveConfig | park | retension | driveReset | mount | defineView | confirm | unmount | describe | setProfile | clearProfile
  | setDefaults | readProfile | probeProfile | readBand | cancel | hold | lookup | find | fetch | choose | amend | retire | retireBand
  | retireVolume | synthesize | abortTransfer | setTransferLevel | status | clearFlags | restart => exact ⟨_, rfl, keeping_submit ..⟩
  | readyReport => exact ⟨_, rfl, keeping_readyReport⟩
  | notReadyReport => exact ⟨_, rfl, keeping_notReadyReport⟩
  | mediaChangeReport => exact ⟨_, rfl, keeping_mediaChange⟩
  | indexReport => exact ⟨_, rfl, keeping_watched (fun _ c => keeping_indexAt c) _⟩
  | blockMarkReport => exact ⟨_, rfl, keeping_watched (fun _ c => keeping_blockMarkAt c) _⟩
  | bandStartMark => exact ⟨_, rfl, keeping_watched (fun _ c => keeping_bandStartAt c) _⟩
  | bandEndMark => exact ⟨_, rfl, keeping_watched (fun _ c => keeping_bandEndAt c) _⟩
  | track0Report => exact ⟨_, rfl, keeping_track0⟩
  | positionedReport => exact ⟨_, rfl, keeping_positionedReport⟩
  | startReport => exact ⟨_, rfl, keeping_startReport⟩
  | retensionCompleteReport => exact ⟨_, rfl, keeping_retensionComplete⟩
  | stepIntervalExpiry => exact ⟨_, rfl, keeping_stepExpiry⟩
  | settleExpiry => exact ⟨_, rfl, keeping_settleExpiry⟩
  | positionOvertime => exact ⟨_, rfl, keeping_positionOvertime⟩
  | streamWatchdogExpiry => exact ⟨_, rfl, keeping_watchdogExpiry⟩
  | parkOvertime => exact ⟨_, rfl, keeping_parkOvertime⟩
  | retensionWatchdogExpiry => exact ⟨_, rfl, keeping_retensionExpiry⟩
  | goodHeader => exact ⟨_, rfl, keeping_atChannel fun _ c => keeping_goodHeaderAt c _⟩
  | badHeader => exact ⟨_, rfl, keeping_atChannel fun _ c => keeping_badHeaderAt c⟩
  | dataFieldEnd => exact ⟨_, rfl, keeping_atChannel fun _ c => keeping_dataEndAt c _ _ _⟩
  | takeReading => exact ⟨_, rfl, keeping_takeReading⟩
  | voteEnd => exact ⟨_, rfl, keeping_voteEnd⟩
  | dataMark => exact ⟨_, rfl, keeping_atChannel fun _ c => keeping_dataMarkAt c⟩

end step

/-! ## The resets (R200) -/

section resets

variable {s t : State}

theorem State.AtReset.tablesSound (h : t.AtReset) (hm : t.memory.wf = true) : t.TablesSound where
  memory := hm
  ports := portsSound_iff.2 fun p => by rw [show t.ports.get p = Port.reset from h.port_eq p]; decide
  volumes := by
    refine ⟨h.volume_eq 0, fun x _ => by rw [h.volume_eq x]; trivial, fun p x _ y _ hx _ => ?_⟩
    obtain ⟨m, hm, -⟩ := presentOn_iff.1 hx
    rw [h.volume_eq x] at hm
    cases hm
  profiles := by
    refine ⟨by rw [h.profiles]; decide, fun i p hp => ?_⟩
    rw [h.slot_eq i] at hp
    cases hp
  jobs := by
    have hj := h.jobs
    refine ⟨by rw [hj]; decide, by rw [hj]; exact .nil, ?_, by rw [h.nextJobId]; decide, ?_, ?_⟩
    all_goals rw [hj]; exact List.forall_mem_nil _
  table := by
    have he := h.entries
    exact ⟨by rw [he]; decide, by rw [he]; exact .nil, by rw [he]; exact List.forall_mem_nil _⟩

theorem State.AtReset.linkSound (h : t.AtReset) : t.LinkSound where
  reserved := by rw [h.link, h.jobs, h.synth]; rfl
  places := by rw [h.link]; decide
  console := by rw [h.link]; decide
  transfer := by rw [h.link]; decide
  responses := by rw [h.link]; exact List.forall_mem_nil _
  wordsRead := by rw [h.link]; nofun
  empty := by rw [h.link]; exact fun _ => rfl
  level := by rw [h.link]; decide

theorem reset_memory_wf : State.reset.memory.wf = true := rfl

theorem reset_pool : State.reset.pool = (List.range 2048).drop 4 := by simp only [State.reset, Config.frames]

/-- At power-on the landing places hold the first four frames, and the pool the others (R155, R200). -/
theorem reset_framesSound : State.reset.FramesSound where
  unit := ⟨rfl, rfl⟩
  uses := by
    have hall : State.reset.allFrames = (List.range 2048).drop 4 ++ (List.range 2048).take 4 := by
      rw [show (List.range 2048).take 4 = [0, 1, 2, 3] by rw [List.take_range]; decide]
      unfold State.allFrames
      rw [show State.reset.framesOut = [] from rfl, List.append_nil, reset_pool]
      exact congrArg _ rfl
    rw [hall]
    exact List.perm_append_comm.trans (.of_eq (List.take_append_drop ..))

theorem afterResetLine_framesSound (hs : s.FramesSound) : s.afterResetLine.FramesSound :=
  ⟨⟨rfl, rfl⟩, (afterResetLine_frames s).trans hs.uses⟩

end resets

/-! ## One step -/

section kept

variable {s t : State}

/-- The commands and events that wait are no part of any law. -/
theorem tablesSound_setPending {is : List Instr} (hs : s.TablesSound) : (s.setPending is).TablesSound :=
  hs.of_fields hs.memory hs.ports rfl rfl (hs.jobs.of_eq rfl rfl) (hs.table.of_eq rfl)

theorem framesSound_setPending {is : List Instr} (hs : s.FramesSound) : (s.setPending is).FramesSound := ⟨hs.unit, hs.uses⟩

theorem linkSound_setPending {is : List Instr} (hs : s.LinkSound) : (s.setPending is).LinkSound :=
  ⟨hs.reserved, hs.places, hs.console, hs.transfer, hs.responses, hs.wordsRead, hs.empty, hs.level⟩

theorem exec_tablesSound {i : Instr} (hs : s.TablesSound) (ht : exec i s = .next t) : t.TablesSound := by
  by_cases hi : i ∈ [Instr.powerOn, Instr.resetLine]
  · rcases List.mem_pair.1 hi with rfl | rfl
    · cases ht
      exact (reset_atReset.setPending _).tablesSound reset_memory_wf
    · cases ht
      exact (afterResetLine_atReset s).tablesSound hs.memory
  · obtain ⟨u, hu, hkeep⟩ := keeping_exec (s := s) (h := ⟨0, 0⟩) hi
    cases hu.symm.trans ht
    exact hkeep.tables hs

theorem exec_framesSound {i : Instr} (hs : s.TablesSound) (hf : s.FramesSound) (ht : exec i s = .next t) : t.FramesSound := by
  by_cases hi : i ∈ [Instr.powerOn, Instr.resetLine]
  · rcases List.mem_pair.1 hi with rfl | rfl
    · cases ht
      exact framesSound_setPending reset_framesSound
    · cases ht
      exact afterResetLine_framesSound hf
  · obtain ⟨u, hu, hkeep⟩ := keeping_exec (s := s) (h := ⟨0, 0⟩) hi
    cases hu.symm.trans ht
    obtain ⟨hunit, huses⟩ := (framesSound_iff s).1 hf
    exact (framesSound_iff t).2 ⟨hkeep.unit hs hunit, (hkeep.uses hs hunit).trans huses⟩

theorem exec_linkSound {i : Instr} (hs : s.TablesSound) (hf : s.FramesSound) (hl : s.LinkSound) (ht : exec i s = .next t) : t.LinkSound := by
  by_cases hi : i ∈ [Instr.powerOn, Instr.resetLine]
  · rcases List.mem_pair.1 hi with rfl | rfl
    · cases ht
      exact (reset_atReset.setPending _).linkSound
    · cases ht
      exact (afterResetLine_atReset s).linkSound
  · obtain ⟨u, hu, hkeep⟩ := keeping_exec (s := s) (h := ⟨0, 0⟩) hi
    cases hu.symm.trans ht
    exact (linkSound_iff t).2 (hkeep.link hs hf.unit ((linkSound_iff s).1 hl))

/-- A step idles, or takes the first command or event that waits. -/
theorem step_next (ht : step s = .next t) : t = s ∨ ∃ i rest, s.pending = i :: rest ∧ exec i (s.setPending rest) = .next t := by
  unfold step at ht
  split at ht
  · cases ht
    exact .inl rfl
  · rename_i i rest hp
    exact .inr ⟨i, rest, hp, ht⟩

end kept

end Sys2Proof.Machine

namespace Sys2Proof

open Machine

/-- Settles O2: both resets put back what waits, and no other command or event touches it. -/
theorem everyCommandAnswers : Obligations.EveryCommandAnswers := by
  intro i s
  by_cases hi : i ∈ [Instr.powerOn, Instr.resetLine]
  · rcases List.mem_pair.1 hi with rfl | rfl
    · exact ⟨_, exec_powerOn s, rfl⟩
    · exact ⟨_, exec_resetLine s, afterResetLine_pending s⟩
  · obtain ⟨t, ht, hkeep⟩ := keeping_exec (s := s) (h := ⟨0, 0⟩) hi
    exact ⟨t, ht, hkeep.pending⟩

/-- Settles O57: the tables and the link port stand at their reset values, and the frames are dealt out once. -/
theorem resetSound : Obligations.ResetSound :=
  ⟨reset_atReset.tablesSound reset_memory_wf, reset_framesSound, reset_atReset.linkSound⟩

/-- Settles O58: every change of a field keeps the laws of the tables, and every command and event is a chain of such changes. -/
theorem tablesKept : Obligations.TablesKept := by
  intro s t hs ht
  rcases step_next ht with rfl | ⟨i, rest, -, ht⟩
  · exact hs
  · exact exec_tablesSound (tablesSound_setPending hs) ht

/-- Settles O59: no change makes or loses a frame; one that a use gives up is in hand until another takes it. -/
theorem framesKept : Obligations.FramesKept := by
  intro s t hs hf ht
  rcases step_next ht with rfl | ⟨i, rest, -, ht⟩
  · exact hf
  · exact exec_framesSound (tablesSound_setPending hs) (framesSound_setPending hf) ht

/-- Settles O60: a place is reserved for a command as it is taken, and passes to its response, its job or its request. -/
theorem linkKept : Obligations.LinkKept := by
  intro s t hs hf hl ht
  rcases step_next ht with rfl | ⟨i, rest, -, ht⟩
  · exact hl
  · exact exec_linkSound (tablesSound_setPending hs) (framesSound_setPending hf) (linkSound_setPending hl) ht

end Sys2Proof

/-! Layouts (chapter 11): the numbers in the fields of a word that is made of joined fields, and the words the link port shows. -/

namespace Sys2Proof.Machine

open Laws

/-! ## Fields as numbers -/

theorem bitsOf_eq (w : Word) (high low : Nat) : bitsOf w high low = w.toNat / 2 ^ low % 2 ^ (high + 1 - low) := by
  rw [bitsOf, BitVec.extractLsb'_toNat, Nat.shiftRight_eq_div_pow]

theorem laidOut_nil (w : Word) : laidOut w [] := List.forall_mem_nil _

/-- A layout field by field, each as a number. -/
theorem laidOut_cons (w : Word) (high low n : Nat) (rest : List (Nat × Nat × Nat)) :
    laidOut w ((high, low, n) :: rest) ↔ w.toNat / 2 ^ low % 2 ^ (high + 1 - low) = n % 2 ^ (high + 1 - low) ∧ laidOut w rest := by
  rw [← bitsOf_eq]
  exact List.forall_mem_cons

/-! ## The words of the link port (R195, R207) -/

section words

variable (s : State)

theorem directionNumber_lt : s.directionNumber < 3 := by
  unfold State.directionNumber
  split
  · decide
  · rename_i t _
    cases t.direction <;> decide

theorem directionNumber_eq :
    s.directionNumber = match s.transfer with | none => 0 | some t => if t.direction = .outbound then 1 else 2 := by
  unfold State.directionNumber
  cases s.transfer with
  | none => rfl
  | some t => cases h : t.direction <;> simp [h, Direction.number]

theorem poolLow_toNat : s.poolLow.toNat = if s.pool.length < 8 then 1 else 0 := by
  unfold State.poolLow Config.poolLow
  split <;> simp_all

theorem reconcilerBusy_toNat : s.reconcilerBusy.toNat = if s.input = [] then 0 else 1 := by
  unfold State.reconcilerBusy
  cases s.input <;> rfl

theorem portState_number (st : PortState) :
    [PortState.offline, .idle, .positioning, .onBand, .streaming, .parking, .retensioning, .faulted].idxOf st = st.number := by
  cases st <;> rfl

/-- The status word as a number, its fields in descending order. -/
theorem statusWord_toNat : s.statusWord.toNat
    = 2 ^ 30 * (min s.link.responses.length 3) + 2 ^ 28 * min (8 - s.link.console.records.length) 3
      + 2 ^ 26 * min (8 - s.link.transfer.records.length) 3
      + 2 ^ 25 * (s.link.mediaChanged.get 3).toNat + 2 ^ 24 * (s.link.mediaChanged.get 2).toNat
      + 2 ^ 23 * (s.link.mediaChanged.get 1).toNat + 2 ^ 22 * (s.link.mediaChanged.get 0).toNat
      + 2 ^ 21 * s.link.overflow.toNat + 2 ^ 20 * s.link.portMisuse.toNat + 2 ^ 19 * s.poolLow.toNat + 2 ^ 17 * s.directionNumber
      + 2 ^ 16 * s.reconcilerBusy.toNat
      + 2 ^ 12 * (s.port 3).summary.toNat + 2 ^ 8 * (s.port 2).summary.toNat + 2 ^ 4 * (s.port 1).summary.toNat + (s.port 0).summary.toNat := by
  have hdirection := directionNumber_lt s
  unfold State.statusWord
  simp only [toNat_joined, BitVec.toNat_ofNat, toNat_flag, shownCount, Lane.freePlaces, Config.queueRecords]
  simp only [State.port, Four.get]
  omega

theorem summary_toNat (p : Port) : p.summary.toNat = 2 * p.state.number + p.ready.toNat := by
  unfold Port.summary
  rw [toNat_joined, toNat_flag, BitVec.toNat_ofNat]
  cases p.state <;> rfl

/-- What bounds the fields of the status word. -/
structure State.StatusBounds (s : State) : Prop where
  media : ∀ p, (s.link.mediaChanged.get p).toNat < 2
  overflow : s.link.overflow.toNat < 2
  misuse : s.link.portMisuse.toNat < 2
  low : s.poolLow.toNat < 2
  direction : s.directionNumber < 3
  busy : s.reconcilerBusy.toNat < 2
  summary : ∀ p, (s.port p).summary.toNat < 16

theorem statusBounds : s.StatusBounds where
  media _ := toNat_flag_lt _
  overflow := toNat_flag_lt _
  misuse := toNat_flag_lt _
  low := toNat_flag_lt _
  direction := directionNumber_lt s
  busy := toNat_flag_lt _
  summary _ := BitVec.isLt _

theorem statusWord_laidOut : laidOut s.statusWord
    [(31, 30, min s.link.responses.length 3), (29, 28, min (8 - s.link.console.records.length) 3),
     (27, 26, min (8 - s.link.transfer.records.length) 3), (21, 21, s.link.overflow.toNat), (20, 20, s.link.portMisuse.toNat),
     (19, 19, s.poolLow.toNat), (18, 17, s.directionNumber), (16, 16, s.reconcilerBusy.toNat)] := by
  obtain ⟨hmedia, hover, hmisuse, hlow, hdirection, hbusy, hsummary⟩ := statusBounds s
  have hm0 := hmedia 0
  have hm1 := hmedia 1
  have hm2 := hmedia 2
  have hm3 := hmedia 3
  have hs0 := hsummary 0
  have hs1 := hsummary 1
  have hs2 := hsummary 2
  have hs3 := hsummary 3
  simp only [laidOut_cons, statusWord_toNat]
  refine ⟨?_, ?_, ?_, ?_, ?_, ?_, ?_, ?_, laidOut_nil _⟩
  all_goals omega

theorem statusWord_port (p : Fin 4) : laidOut s.statusWord
    [(22 + p.val, 22 + p.val, (s.link.mediaChanged.get p).toNat), (4 * p.val + 3, 4 * p.val + 1, (s.port p).state.number),
     (4 * p.val, 4 * p.val, (s.port p).ready.toNat)] := by
  obtain ⟨hmedia, hover, hmisuse, hlow, hdirection, hbusy, hsummary⟩ := statusBounds s
  have hm0 := hmedia 0
  have hm1 := hmedia 1
  have hm2 := hmedia 2
  have hm3 := hmedia 3
  have hs0 := hsummary 0
  have hs1 := hsummary 1
  have hs2 := hsummary 2
  have hs3 := hsummary 3
  have hsplit : (s.port p).ready.toNat < 2 := toNat_flag_lt _
  have hparts := summary_toNat (s.port p)
  simp only [laidOut_cons, statusWord_toNat]
  obtain rfl | rfl | rfl | rfl : p = 0 ∨ p = 1 ∨ p = 2 ∨ p = 3 := by omega
  all_goals
    simp only [Fin.coe_ofNat_eq_mod, Nat.reduceMod, Nat.reduceAdd, Nat.reduceMul, Nat.reduceSub]
    refine ⟨?_, ?_, ?_, laidOut_nil _⟩
    all_goals omega

theorem fillLevels_laidOut : laidOut s.fillLevels
    [(31, 28, s.link.console.records.length), (27, 24, s.link.transfer.records.length), (23, 22, s.link.console.assembly.length),
     (21, 20, s.link.transfer.assembly.length), (19, 14, s.link.responses.length), (13, 8, s.link.reserved), (7, 0, 0)] := by
  unfold State.fillLevels
  simp only [laidOut_cons, toNat_joined, BitVec.toNat_ofNat]
  refine ⟨?_, ?_, ?_, ?_, ?_, ?_, ?_, laidOut_nil _⟩
  all_goals omega

theorem identificationWord_laidOut : laidOut identificationWord [(31, 16, 240), (15, 8, Config.revision.toNat), (7, 0, 0)] := by
  have hrevision := Config.revision.isLt
  unfold identificationWord
  simp only [laidOut_cons, toNat_joined, BitVec.toNat_ofNat]
  refine ⟨?_, ?_, ?_, laidOut_nil _⟩
  all_goals omega

/-! ## The interrupt line (R196) -/

theorem interrupt_iff : s.interrupt = true ↔ (s.link.enables.getLsbD 0 = true ∧ s.link.responses ≠ [])
    ∨ ∃ p : Fin 4, s.link.enables.getLsbD (1 + p.val) = true ∧ s.link.mediaChanged.get p = true := by
  unfold State.interrupt
  simp only [Bool.or_eq_true, Bool.and_eq_true, Bool.not_eq_true', List.isEmpty_eq_false_iff, Fin.exists_fin_succ,
    IsEmpty.exists_iff, or_false, or_assoc]
  rfl

end words

end Sys2Proof.Machine

namespace Sys2Proof

open Machine

/-- Settles O1: the equation of the step at a queue that is not empty. -/
theorem stepRunsFrontCommand : Obligations.StepRunsFrontCommand := by
  intro s c rest hp
  unfold step
  rw [hp]
  rfl

/-- Settles O4: word by word, each field read off the word's number. -/
theorem registerWritesAndReads : Obligations.RegisterWritesAndReads := by
  refine ⟨fun _ _ _ => rfl, fun _ _ => rfl, fun _ => ⟨rfl, rfl, rfl, rfl, rfl⟩, fun s => ⟨_, rfl, ?status, fun p => ?ports⟩,
    fun s => ⟨_, rfl, fillLevels_laidOut s⟩, fun _ => ⟨_, rfl, identificationWord_laidOut⟩, interrupt_iff⟩
  case status =>
    have hword := statusWord_laidOut s
    rwa [poolLow_toNat, directionNumber_eq, reconcilerBusy_toNat] at hword
  case ports =>
    have hword := statusWord_port s p
    rwa [← portState_number] at hword

end Sys2Proof

/-! Command records (R202, R203): a record spells a command exactly when the intake reads that command in it. -/

namespace Sys2Proof

open Machine

section fields

variable {w : Word} {high low n : Nat}

theorem bitsOf_eq_toNat (x : BitVec n) (h : high + 1 - low = n) : bitsOf w high low = x.toNat ↔ w.extractLsb' low n = x := by
  subst h
  exact BitVec.toNat_inj

theorem bitsOf_eq_flag (b : Bool) : bitsOf w low low = b.toNat ↔ w.getLsbD low = b := by
  have hone : low + 1 - low = 1 := by omega
  rw [bitsOf, hone, BitVec.getLsbD_eq_extractLsb']
  generalize w.extractLsb' low 1 = x
  revert x b
  decide

end fields

/-- Each field of a list holds its number in a record. -/
def Record.Holds (r : Record) (fields : List (Nat × Nat × Nat × Nat)) : Prop :=
  ∀ f ∈ fields, bitsOf ([r.w0, r.w1, r.w2, r.w3].getD f.1 0) f.2.1 f.2.2.1 = f.2.2.2

section holds

variable (r : Record)

theorem holds_nil : r.Holds [] := List.forall_mem_nil _

theorem holds_cons (i high low n : Nat) (rest : List (Nat × Nat × Nat × Nat)) :
    r.Holds ((i, high, low, n) :: rest) ↔ bitsOf ([r.w0, r.w1, r.w2, r.w3].getD i 0) high low = n ∧ r.Holds rest := List.forall_mem_cons

theorem holds_append (a b : List (Nat × Nat × Nat × Nat)) : r.Holds (a ++ b) ↔ r.Holds a ∧ r.Holds b := List.forall_mem_append

theorem spells_iff_holds (tag : BitVec 8) (c : HostCommand) : spells r tag c ↔ r.tag = tag ∧ r.Holds (commandLayout c) := by
  refine (holds_cons r 0 23 16 tag.toNat (commandLayout c)).trans ?_
  rw [bitsOf_eq_toNat (high := 23) (low := 16) tag rfl]
  rfl

theorem holds_code (n : Nat) (rest : List (Nat × Nat × Nat × Nat)) :
    r.Holds ((0, 31, 24, n) :: rest) ↔ r.code.toNat = n ∧ r.Holds rest := holds_cons ..

theorem holds_selector (x : BitVec 8) (rest : List (Nat × Nat × Nat × Nat)) :
    r.Holds ((1, 17, 10, x.toNat) :: rest) ↔ r.selector = x ∧ r.Holds rest := by
  rw [holds_cons, bitsOf_eq_toNat (high := 17) (low := 10) x rfl]
  rfl

theorem holds_handle (x : BitVec 6) (rest : List (Nat × Nat × Nat × Nat)) :
    r.Holds ((0, 15, 10, x.toNat) :: rest) ↔ r.handle = x ∧ r.Holds rest := by
  rw [holds_cons, bitsOf_eq_toNat (high := 15) (low := 10) x rfl]
  rfl

theorem holds_field {n : Nat} (i high low : Nat) (x : BitVec n) (h : high + 1 - low = n) (rest : List (Nat × Nat × Nat × Nat)) :
    r.Holds ((i, high, low, x.toNat) :: rest) ↔ ([r.w0, r.w1, r.w2, r.w3].getD i 0).extractLsb' low n = x ∧ r.Holds rest := by
  rw [holds_cons, bitsOf_eq_toNat x h]

theorem holds_flag (i low : Nat) (b : Bool) (rest : List (Nat × Nat × Nat × Nat)) :
    r.Holds ((i, low, low, b.toNat) :: rest) ↔ ([r.w0, r.w1, r.w2, r.w3].getD i 0).getLsbD low = b ∧ r.Holds rest := by
  rw [holds_cons, bitsOf_eq_flag]

theorem holds_band (b : BandField) : r.Holds (bandLayout b) ↔ r.band = b := by
  obtain ⟨handle, cylinder, head⟩ := b
  unfold bandLayout
  rw [holds_handle, holds_field r 0 9 0 cylinder rfl, holds_field r 1 31 26 head rfl]
  simp only [holds_nil, and_true, Record.band, BandField.mk.injEq]
  rfl

theorem holds_key (k : KeyField) : r.Holds (keyLayout k) ↔ r.key = k := by
  obtain ⟨handle, cylinder, head, sector⟩ := k
  unfold keyLayout
  rw [holds_handle, holds_field r 0 9 0 cylinder rfl, holds_field r 1 31 26 head rfl, holds_field r 1 25 18 sector rfl]
  simp only [holds_nil, and_true, Record.key, KeyField.mk.injEq]
  rfl

theorem holds_attributes (a : AttributeField) : r.Holds (attributeLayout a) ↔ AttributeField.ofWord r.w3 = a := by
  obtain ⟨passLimit, quorum, tolerance, escalate, startFirst, reseat, park, autoSynthesize⟩ := a
  unfold attributeLayout
  rw [holds_field r 3 31 28 passLimit rfl, holds_field r 3 27 25 quorum rfl, holds_field r 3 24 22 tolerance rfl]
  simp only [holds_flag, holds_nil, and_true, AttributeField.ofWord, AttributeField.mk.injEq]
  rfl

theorem holds_config (f : ConfigField) (rest : List (Nat × Nat × Nat × Nat)) :
    r.Holds ([(2, 31, 30, f.kind.toNat), (2, 29, 24, f.settle.toNat), (2, 23, 13, f.index.toNat), (2, 12, 0, f.mark.toNat),
      (3, 31, 25, f.interval.toNat), (3, 24, 24, f.auto.toNat)] ++ rest) ↔ ConfigField.ofWords r.w2 r.w3 = f ∧ r.Holds rest := by
  obtain ⟨kind, settle, index, mark, interval, auto⟩ := f
  rw [holds_append]
  refine and_congr_left' ?_
  rw [holds_field r 2 31 30 kind rfl, holds_field r 2 29 24 settle rfl, holds_field r 2 23 13 index rfl, holds_field r 2 12 0 mark rfl,
    holds_field r 3 31 25 interval rfl, holds_flag]
  simp only [holds_nil, and_true, ConfigField.ofWords, ConfigField.mk.injEq]
  rfl

theorem holds_geometry (g : GeometryWord) (rest : List (Nat × Nat × Nat × Nat)) :
    r.Holds ([(2, 31, 21, g.cylinders.toNat), (2, 20, 15, g.heads.toNat), (2, 14, 9, g.sectors.toNat), (2, 8, 1, g.firstId.toNat)] ++ rest)
      ↔ GeometryWord.ofWord r.w2 = g ∧ r.Holds rest := by
  obtain ⟨cylinders, heads, sectors, firstId⟩ := g
  rw [holds_append]
  refine and_congr_left' ?_
  rw [holds_field r 2 31 21 cylinders rfl, holds_field r 2 20 15 heads rfl, holds_field r 2 14 9 sectors rfl, holds_field r 2 8 1 firstId rfl]
  simp only [holds_nil, and_true, GeometryWord.ofWord, GeometryWord.mk.injEq]
  rfl

theorem holds_medium (m : MediumField) :
    r.Holds [(3, 31, 30, m.size.toNat), (3, 29, 28, m.encoding.toNat), (3, 27, 26, m.rate.toNat), (3, 25, 23, m.cls.toNat),
      (3, 22, 20, m.level.toNat), (3, 19, 17, m.drive.toNat), (3, 16, 15, m.kind.toNat)] ↔ MediumField.ofWord r.w3 = m := by
  obtain ⟨size, encoding, rate, cls, level, drive, kind⟩ := m
  rw [holds_field r 3 31 30 size rfl, holds_field r 3 29 28 encoding rfl, holds_field r 3 27 26 rate rfl, holds_field r 3 25 23 cls rfl,
    holds_field r 3 22 20 level rfl, holds_field r 3 19 17 drive rfl, holds_field r 3 16 15 kind rfl]
  simp only [holds_nil, and_true, MediumField.ofWord, MediumField.mk.injEq]
  rfl

theorem holds_view (f : ViewField) :
    r.Holds [(2, 31, 26, f.target.toNat), (2, 25, 16, f.offset.toNat), (2, 15, 5, f.limit.toNat), (2, 4, 2, f.level.toNat)]
      ↔ ViewField.ofWord r.w2 = f := by
  obtain ⟨target, offset, limit, level⟩ := f
  rw [holds_field r 2 31 26 target rfl, holds_field r 2 25 16 offset rfl, holds_field r 2 15 5 limit rfl, holds_field r 2 4 2 level rfl]
  simp only [holds_nil, and_true, ViewField.ofWord, ViewField.mk.injEq]
  rfl

theorem holds_profile (slot : BitVec 8) (m : MatchField) (a : AttributeField) :
    r.Holds (commandLayout (.setProfile slot m a))
      ↔ r.code.toNat = 16 ∧ r.selector = slot ∧ MatchField.ofRecord r = m ∧ AttributeField.ofWord r.w3 = a := by
  obtain ⟨cls, classMask, cylinder, cylinderMask, head, anyHead⟩ := m
  unfold commandLayout
  rw [holds_append, holds_attributes, holds_code, holds_field r 0 9 0 cylinder rfl, holds_field r 1 31 26 head rfl, holds_selector,
    holds_field r 2 31 29 cls rfl, holds_field r 2 28 26 classMask rfl, holds_field r 2 25 16 cylinderMask rfl, holds_flag]
  simp only [holds_nil, and_true, MatchField.ofRecord, MatchField.mk.injEq]
  show (_ ∧ r.cylinder = _ ∧ r.head = _ ∧ _ ∧ r.w2.extractLsb' 29 3 = _ ∧ r.w2.extractLsb' 26 3 = _ ∧ r.w2.extractLsb' 16 10 = _
    ∧ r.w2.getLsbD 15 = _) ∧ _ ↔ _
  tauto

/-- The code that the intake reads is that of the record. -/
theorem command_code : r.command.code = r.code := by
  have hcode : ∀ n : Nat, n < 256 → r.code.toNat = n → BitVec.ofNat 8 n = r.code := by
    rintro _ - rfl
    exact BitVec.ofNat_toNat ..
  unfold Record.command
  split
  case h_32 => rfl
  all_goals
    rename_i hn
    exact hcode _ (by decide) hn

theorem code_of_holds {c : HostCommand} (h : r.Holds (commandLayout c)) : r.code = c.code := by
  refine BitVec.eq_of_toNat_eq (h (0, 31, 24, c.code.toNat) ?_)
  cases c <;> simp [commandLayout, HostCommand.code]

/-- A record that holds a command's fields is read as that command, and no other is. -/
theorem holds_iff_command {c : HostCommand} (hc : c.wellFormed = true) : r.Holds (commandLayout c) ↔ r.command = c := by
  by_cases hcode : r.code = c.code
  case neg => exact ⟨fun h => absurd (code_of_holds r h) hcode, fun h => absurd (h ▸ (command_code r).symm) hcode⟩
  have hnat : r.code.toNat = c.code.toNat := by rw [hcode]
  cases c with
  | unknown code =>
    have hread : r.command = .unknown r.code := Record.command_unknown r (by simpa [HostCommand.wellFormed, HostCommand.code, hcode] using hc)
    rw [hread, commandLayout, holds_code, hnat]
    simp [holds_nil, hcode, HostCommand.code]
  | driveConfig port f =>
    rw [show commandLayout (.driveConfig port f) = (0, 31, 24, 1) :: (1, 17, 10, port.toNat) :: ([(2, 31, 30, f.kind.toNat),
      (2, 29, 24, f.settle.toNat), (2, 23, 13, f.index.toNat), (2, 12, 0, f.mark.toNat), (3, 31, 25, f.interval.toNat),
      (3, 24, 24, f.auto.toNat)] ++ []) from rfl, holds_code, holds_selector, holds_config]
    simp only [Record.command, hnat, HostCommand.code]
    simp [holds_nil]
  | mount h g m =>
    rw [show commandLayout (.mount h g m) = (0, 31, 24, 8) :: (0, 15, 10, h.toNat) :: ([(2, 31, 21, g.cylinders.toNat),
      (2, 20, 15, g.heads.toNat), (2, 14, 9, g.sectors.toNat), (2, 8, 1, g.firstId.toNat)] ++ _) from rfl, holds_code, holds_handle,
      holds_geometry, holds_medium]
    simp only [Record.command, hnat, HostCommand.code]
    simp
  | setProfile slot m a =>
    rw [holds_profile]
    simp only [Record.command, hnat, HostCommand.code]
    simp
  | cancel job =>
    rw [commandLayout, holds_code, holds_field r 2 7 0 job rfl]
    simp only [Record.command, hnat, HostCommand.code]
    simp [holds_nil]
  | hold job n =>
    rw [commandLayout, holds_code, holds_field r 2 7 0 job rfl, holds_field r 3 4 0 n rfl]
    simp only [Record.command, hnat, HostCommand.code]
    simp [holds_nil]
  | find k w states =>
    rw [commandLayout, holds_code, holds_selector, holds_field r 2 31 0 states rfl, holds_key]
    simp only [Record.command, hnat, HostCommand.code]
    simp
    tauto
  | amend k check =>
    rw [commandLayout, holds_code, holds_field r 2 31 0 check rfl, holds_key]
    simp only [Record.command, hnat, HostCommand.code]
    simp [and_comm]
  | setTransferLevel level =>
    rw [commandLayout, holds_code, holds_field r 2 2 0 level rfl]
    simp only [Record.command, hnat, HostCommand.code]
    simp [holds_nil]
  | status part number =>
    rw [commandLayout, holds_code, holds_selector, holds_field r 2 7 0 number rfl]
    simp only [Record.command, hnat, HostCommand.code]
    simp [holds_nil]
  | clearFlags flags =>
    rw [commandLayout, holds_code, holds_field r 2 5 0 flags rfl]
    simp only [Record.command, hnat, HostCommand.code]
    simp [holds_nil]
  | defineView | setDefaults | probeProfile | readBand | park | retension | driveReset | confirm | unmount | describe | clearProfile
  | readProfile | lookup | fetch | choose | retire | retireBand | retireVolume | synthesize | abortTransfer | restart =>
    simp only [commandLayout, holds_code, holds_selector, holds_handle, holds_key, holds_band, holds_view, holds_attributes, holds_nil, and_true,
      Record.command, hnat, HostCommand.code]
    simp [and_comm]

/-- A record spells a command with its tag exactly when the intake reads that tag and that command in it. -/
theorem spells_iff {tag : BitVec 8} {c : HostCommand} (hc : c.wellFormed = true) : spells r tag c ↔ r.tag = tag ∧ r.command = c := by
  rw [spells_iff_holds, holds_iff_command r hc]

end holds

end Sys2Proof

/-! The link port's accesses: the command queues, the intake, the response queue and the data port (R161 to R170, R187 to R193). -/

namespace Sys2Proof.Machine

open Laws

/-! ## Queue writes and the intake (R187, R189) -/

section queues

variable {s : State} {q : Queue}

theorem writeQueue_joins (w : Word) (h : (s.link.lane q).assembly.length < 3) :
    s.writeQueue q w = s.setLink (s.link.setLane q ⟨(s.link.lane q).assembly ++ [w], (s.link.lane q).records⟩) := by
  unfold State.writeQueue
  dsimp only
  split
  · rename_i habc
    rw [habc] at h
    exact absurd h (by simp)
  · rfl

theorem writeQueue_completes {a b c : Word} (w : Word) (h : (s.link.lane q).assembly = [a, b, c]) :
    s.writeQueue q w = (s.setLink (s.link.setLane q ⟨[], (s.link.lane q).records⟩)).complete q ⟨a, b, c, w⟩ := by
  unfold State.writeQueue
  dsimp only
  rw [h]

/-- The part with the assembly of queue `q` taken as a record. -/
theorem lane_setLane_self (l : Link) (v : Lane) : (l.setLane q v).lane q = v := by cases q <;> rfl

theorem setLane_setLane (l : Link) (v w : Lane) : (l.setLane q v).setLane q w = l.setLane q w := by cases q <;> rfl

theorem setLane_freePlaces (l : Link) (v : Lane) : (l.setLane q v).freePlaces = l.freePlaces := by cases q <;> rfl

theorem setLane_overflow (l : Link) (v : Lane) : ({ l.setLane q v with overflow := true } : Link) = { l with overflow := true }.setLane q v := by
  cases q <;> rfl

/-- A stalled intake leaves a record in its list, or discards it at a full one. -/
theorem complete_stalled (r : Record) (h : s.link.freePlaces < 2) : s.complete q r = s.setLink (s.link.joinRecord q r) := by
  refine intake_stalled ?_
  rw [setLink_link, Link.join_freePlaces]
  exact h

theorem joinRecord_room {l : Link} (r : Record) (h : (l.lane q).records.length < 8) :
    l.joinRecord q r = l.setLane q ⟨(l.lane q).assembly, (l.lane q).records ++ [r]⟩ := if_pos h

theorem joinRecord_full {l : Link} (r : Record) (h : 8 ≤ (l.lane q).records.length) : l.joinRecord q r = { l with overflow := true } :=
  if_neg (Nat.not_lt.2 h)

theorem joinRecord_other {l : Link} {r : Record} {p : Queue} (hc : l.console.records = []) (ht : l.transfer.records = []) (hp : p ≠ q) :
    ((l.joinRecord q r).lane p).records = [] := by
  unfold Link.joinRecord
  dsimp only
  cases q with
  | console =>
    cases p with
    | console => exact absurd rfl hp
    | transfer => split <;> exact ht
  | transfer =>
    cases p with
    | console => split <;> exact hc
    | transfer => exact absurd rfl hp

/-- A part whose lists the judgement of a command leaves empty takes nothing more. -/
theorem judge_intake {c : Ctx} {command : HostCommand} (hc : s.link.console.records = []) (ht : s.link.transfer.records = []) :
    (s.judge c command).intake = s.judge c command := by
  refine intakeLoop_nothing ?_ _
  rcases judge_lanes s c command with h | h
  · rw [show (s.judge c command).link.console = s.link.console from congrArg Prod.fst h,
      show (s.judge c command).link.transfer = s.link.transfer from congrArg Prod.snd h]
    exact ⟨hc, ht⟩
  · exact h

theorem take_eq (r : Record) (rest : List Record) :
    s.take q r rest = ((s.setLink (s.link.setLane q ⟨(s.link.lane q).assembly, rest⟩)).taken q).judge ⟨q, r.tag, r.code, s.link.level q⟩ r.command := rfl

/-- A record that reaches a ready intake is taken at once (R189, R190). -/
theorem complete_ready (r : Record) (h : s.Ready) :
    s.complete q r = (s.taken q).judge ⟨q, r.tag, r.code, s.link.level q⟩ r.command := by
  have hnext := Link.join_take s.link q r h.console h.transfer
  have hrecords := nextRecord_lane hnext
  have hdue : q = (s.link.joinRecord q r).preference ∨ ((s.link.joinRecord q r).lane (s.link.joinRecord q r).preference).records = [] := by
    by_cases hq : q = (s.link.joinRecord q r).preference
    · exact .inl hq
    · exact .inr (joinRecord_other h.console h.transfer (Ne.symm hq))
  have hplaces : 2 ≤ (s.setLink (s.link.joinRecord q r)).link.freePlaces := by
    rw [setLink_link, Link.join_freePlaces]
    exact h.places
  unfold State.complete
  rw [intake_takes hplaces hrecords hdue, take_eq, setLink_link]
  have htake := Link.take_join s.link q r h.console h.transfer
  rw [show (s.link.joinRecord q r).setLane q ⟨((s.link.joinRecord q r).lane q).assembly, []⟩ = s.link from htake, Link.level_joinRecord]
  exact judge_intake (s := s.taken q) h.console h.transfer

/-! ## Reads of the response output (R192) -/

theorem readResponse_empty (h : s.link.responses = []) : s.readResponse = s.putBus 0 := by
  unfold State.readResponse
  rw [h]

theorem readResponse_word {r : List Word} {rest : List (List Word)} (h : s.link.responses = r :: rest) (hmore : s.link.wordsRead + 1 < r.length) :
    s.readResponse = s.setLink { s.link with busOut := r.getD s.link.wordsRead 0, wordsRead := s.link.wordsRead + 1 } := by
  unfold State.readResponse
  rw [h]
  dsimp only
  rw [if_neg (Nat.not_le.2 hmore)]
  rfl

theorem readResponse_last {r : List Word} {rest : List (List Word)} (h : s.link.responses = r :: rest) (hlast : s.link.wordsRead + 1 = r.length) :
    s.readResponse = (s.setLink { s.link with busOut := r.getD s.link.wordsRead 0, responses := rest, wordsRead := 0 }).intake := by
  unfold State.readResponse
  rw [h]
  dsimp only
  rw [if_pos (Nat.le_of_eq hlast.symm)]
  rfl

theorem ready_setLane (h : s.Ready) (a : List Word) : (s.setLink (s.link.setLane q ⟨a, (s.link.lane q).records⟩)).Ready := by
  obtain ⟨hc, ht, hp⟩ := h
  refine ⟨?_, ?_, by rw [setLink_link, setLane_freePlaces]; exact hp⟩
  all_goals cases q <;> assumption

end queues

end Sys2Proof.Machine

namespace Sys2Proof

open Machine

/-- Settles O5: the assembly first, then the record it completes at a stalled and at a ready intake. -/
theorem commandQueueWrite : Obligations.CommandQueueWrite := by
  intro s q w
  refine ⟨fun h => congrArg _ (writeQueue_joins w h), fun a b c h hplaces => ⟨fun hroom => ?room, fun hfull => ?full⟩,
    fun tag command hw h => ?whole, fun r tag command hw => ⟨?layout, fun hspells => ?spelled⟩⟩
  case room =>
    refine congrArg _ ((writeQueue_completes w h).trans ((complete_stalled _ ?_).trans ?_))
    · rw [setLink_link, setLane_freePlaces]
      exact hplaces
    · rw [setLink_link, joinRecord_room _ (by rw [lane_setLane_self]; exact hroom), lane_setLane_self, setLane_setLane]
      rfl
  case full =>
    refine congrArg _ ((writeQueue_completes w h).trans ((complete_stalled _ ?_).trans ?_))
    · rw [setLink_link, setLane_freePlaces]
      exact hplaces
    · rw [setLink_link, joinRecord_full _ (by rw [lane_setLane_self]; exact hfull)]
      rfl
  case whole =>
    rw [exec_instrOf]
    exact congrArg _ (writeQueue_completes _ h)
  case layout => exact (spells_iff _ hw).2 ⟨command.record_tag tag, command.command_record tag hw⟩
  case spelled =>
    obtain ⟨htag, hcommand⟩ := (spells_iff r hw).1 hspells
    have hcode : r.code = command.code := by rw [← command_code, hcommand]
    refine ⟨hcommand, htag, hcode, fun hready h => ?_⟩
    have hready' := ready_setLane (q := q) hready []
    refine Eq.trans ?_ (State.exec_ready _ q tag command hready' hw).symm
    rw [← htag, ← hcode, ← hcommand]
    exact congrArg _ ((writeQueue_completes r.w3 h).trans (complete_ready r hready'))

/-- Settles O6: the three cases of a read, then what the intake does when it judges its condition again. -/
theorem responseQueueRead : Obligations.ResponseQueueRead := by
  intro s
  refine ⟨fun h => congrArg _ (readResponse_empty h), fun r rest h hmore => congrArg _ (readResponse_word h hmore),
    fun r rest h hlast => congrArg _ (readResponse_last h hlast), ?idle, fun q r rest u hp hr hq hu => ?takes,
    fun q tag command hw => ⟨command.command_record tag hw, command.record_tag tag, command.record_code tag,
      fun hready => State.exec_ready s q tag command hready hw⟩⟩
  case idle =>
    rintro (h | h)
    · exact intake_stalled h
    · exact intakeLoop_nothing h _
  case takes =>
    subst hu
    exact (intake_takes hp hr hq).trans (congrArg State.intake (take_eq r rest))

end Sys2Proof

/-! The data port (R161 to R169, R180, R181). -/

namespace Sys2Proof.Machine

/-! ## The candidate that leaves a list (R128, R150, R181) -/

/-- Place `k` of a list holds the lowest agree count `a` of those with `p`, the first of several. -/
def LowestAt (p : Candidate → Bool) (l : List Candidate) (k a : Nat) : Prop :=
  ∃ c, l[k]? = some c ∧ p c = true ∧ c.agree = a ∧ ∀ i x, l[i]? = some x → p x = true → a < x.agree ∨ (a = x.agree ∧ k ≤ i)

theorem lowestAt_zero {p : Candidate → Bool} {c : Candidate} {rest : List Candidate} {a : Nat} :
    LowestAt p (c :: rest) 0 a ↔ p c = true ∧ c.agree = a ∧ ∀ x ∈ rest, p x = true → a ≤ x.agree := by
  constructor
  · rintro ⟨c', hc, hp, ha, hleast⟩
    rw [List.getElem?_cons_zero, Option.some.injEq] at hc
    subst hc
    refine ⟨hp, ha, fun x hx hpx => ?_⟩
    obtain ⟨i, hi⟩ := List.mem_iff_getElem?.1 hx
    have := hleast (i + 1) x (by rw [List.getElem?_cons_succ]; exact hi) hpx
    omega
  · rintro ⟨hp, ha, hleast⟩
    refine ⟨c, rfl, hp, ha, fun i x hx hpx => ?_⟩
    cases i with
    | zero =>
      rw [List.getElem?_cons_zero, Option.some.injEq] at hx
      subst hx
      exact .inr ⟨ha.symm, le_rfl⟩
    | succ i =>
      rw [List.getElem?_cons_succ] at hx
      have := hleast x (List.mem_of_getElem? hx) hpx
      omega

theorem lowestAt_succ {p : Candidate → Bool} {c : Candidate} {rest : List Candidate} {k a : Nat} :
    LowestAt p (c :: rest) (k + 1) a ↔ LowestAt p rest k a ∧ (p c = true → a < c.agree) := by
  constructor
  · rintro ⟨x, hx, hp, ha, hleast⟩
    refine ⟨⟨x, by rwa [List.getElem?_cons_succ] at hx, hp, ha, fun i y hy hpy => ?_⟩, fun hpc => ?_⟩
    · have := hleast (i + 1) y (by rw [List.getElem?_cons_succ]; exact hy) hpy
      omega
    · have := hleast 0 c rfl hpc
      omega
  · rintro ⟨⟨x, hx, hp, ha, hleast⟩, hc⟩
    refine ⟨x, by rwa [List.getElem?_cons_succ], hp, ha, fun i y hy hpy => ?_⟩
    cases i with
    | zero =>
      rw [List.getElem?_cons_zero, Option.some.injEq] at hy
      subst hy
      exact .inl (hc hpy)
    | succ i =>
      rw [List.getElem?_cons_succ] at hy
      have := hleast i y hy hpy
      omega

/-- The search finds that place, or finds that none has `p`. -/
theorem lowestAgree_spec (p : Candidate → Bool) : ∀ (l : List Candidate) (i : Nat),
    match lowestAgree p l i with
    | none => ∀ c ∈ l, p c = false
    | some (k, a) => ∃ n, k = i + n ∧ LowestAt p l n a
  | [], _ => List.forall_mem_nil _
  | c :: rest, i => by
    have ih := lowestAgree_spec p rest (i + 1)
    unfold lowestAgree
    rcases hrest : lowestAgree p rest (i + 1) with _ | ⟨k, a⟩
    · rw [hrest] at ih
      dsimp only at ih ⊢
      by_cases hc : p c = true
      · rw [if_pos hc]
        refine ⟨0, rfl, lowestAt_zero.2 ⟨hc, rfl, fun x hx hpx => ?_⟩⟩
        rw [ih x hx] at hpx
        cases hpx
      · rw [if_neg hc]
        exact List.forall_mem_cons.2 ⟨by simpa using hc, ih⟩
    · rw [hrest] at ih
      obtain ⟨n, rfl, hn⟩ := ih
      dsimp only
      by_cases hc : (p c && decide (c.agree ≤ a)) = true
      · rw [if_pos hc]
        simp only [Bool.and_eq_true, decide_eq_true_eq] at hc
        refine ⟨0, rfl, lowestAt_zero.2 ⟨hc.1, rfl, fun x hx hpx => ?_⟩⟩
        obtain ⟨j, hj⟩ := List.mem_iff_getElem?.1 hx
        obtain ⟨-, -, -, -, hleast⟩ := hn
        have := hleast j x hj hpx
        omega
      · rw [if_neg hc]
        refine ⟨n + 1, by omega, lowestAt_succ.2 ⟨hn, fun hpc => ?_⟩⟩
        simp only [hpc, Bool.true_and, decide_eq_true_eq] at hc
        omega

theorem lowestAt_unique {p : Candidate → Bool} {l : List Candidate} {k k' a a' : Nat} (h : LowestAt p l k a) (h' : LowestAt p l k' a') :
    k = k' := by
  obtain ⟨c, hc, hp, rfl, hleast⟩ := h
  obtain ⟨c', hc', hp', rfl, hleast'⟩ := h'
  have h1 := hleast k' c' hc' hp'
  have h2 := hleast' k c hc hp
  omega

theorem lowestAgree_eq_some {p : Candidate → Bool} {l : List Candidate} {k : Nat} :
    (lowestAgree p l 0).map Prod.fst = some k ↔ ∃ a, LowestAt p l k a := by
  have hspec := lowestAgree_spec p l 0
  split at hspec
  · rename_i hnone
    rw [hnone]
    refine ⟨fun h => by simp at h, fun ⟨_, c, hc, hp, _⟩ => ?_⟩
    rw [hspec c (List.mem_of_getElem? hc)] at hp
    cases hp
  · rename_i k' a hsome
    obtain ⟨n, rfl, hn⟩ := hspec
    rw [hsome, Option.map_some, Option.some.injEq, Nat.zero_add]
    exact ⟨fun h => ⟨a, h ▸ hn⟩, fun ⟨_, hk⟩ => lowestAt_unique hn hk⟩

theorem exists_lowestAt_iff {e : Entry} {p : Candidate → Bool} {P : Candidate → Prop} (hP : ∀ c, p c = true ↔ P c) {k : Nat} :
    (∃ a, LowestAt p e.candidates k a) ↔ e.LowestAgree P k := by
  constructor
  · rintro ⟨_, c, hc, hp, rfl, hleast⟩
    exact ⟨c, hc, (hP c).1 hp, fun i x hx hpx => hleast i x hx ((hP x).2 hpx)⟩
  · rintro ⟨c, hc, hp, hleast⟩
    exact ⟨_, c, hc, (hP c).2 hp, rfl, fun i x hx hpx => hleast i x hx ((hP x).1 hpx)⟩

theorem weakestBad_iff {e : Entry} {k : Nat} : e.weakestBad = some k ↔ e.LowestAgree (fun c => c.clean = false) k :=
  lowestAgree_eq_some.trans (exists_lowestAt_iff fun c => by simp)

/-- Of a list with bad candidates the weakest bad one leaves. -/
theorem weakest_of_bad {e : Entry} (hbad : ∃ c ∈ e.candidates, c.clean = false) {k : Nat} :
    e.weakest = some k ↔ e.LowestAgree (fun c => c.clean = false) k := by
  rw [← weakestBad_iff]
  unfold Entry.weakest
  obtain ⟨c, hc, hclean⟩ := hbad
  have hsome := lowestAgree_isSome (p := fun c => !c.clean) 0 ⟨c, hc, by simp [hclean]⟩
  split
  · rename_i hk
    rw [hk]
  · rename_i hnone
    unfold Entry.weakestBad at hnone
    rw [Option.map_eq_none_iff] at hnone
    rw [hnone] at hsome
    cases hsome

/-- Of a list without bad candidates the weakest one leaves. -/
theorem weakest_of_clean {e : Entry} (hclean : ∀ c ∈ e.candidates, c.clean = true) {k : Nat} :
    e.weakest = some k ↔ e.LowestAgree (fun _ => True) k := by
  have hnone : e.weakestBad = none := by
    refine Option.eq_none_iff_forall_ne_some.2 fun k hk => ?_
    obtain ⟨c, hc, hbad, -⟩ := weakestBad_iff.1 hk
    rw [hclean c (List.mem_of_getElem? hc)] at hbad
    cases hbad
  unfold Entry.weakest
  rw [hnone]
  exact lowestAgree_eq_some.trans (exists_lowestAt_iff fun _ => by simp)

/-! ## Bytes of a frame (R207) -/

section bytes

variable (s : State)

theorem frameAddress_eq (frame : Nat) : frameAddress frame = 1024 * frame := Nat.mul_comm ..

theorem writeFrame_memory (frame offset : Nat) (bytes : List Byte) :
    (s.writeFrame frame offset bytes).memory = s.memory.write (1024 * frame + offset) (bytes.take (1024 - offset)) := by
  unfold State.writeFrame
  rw [frameAddress_eq]
  rfl

theorem writeFrame_inside {frame offset : Nat} {bytes : List Byte} {i : Nat} {b : Byte} (hb : bytes[i]? = some b) (hi : offset + i < 1024) :
    (s.writeFrame frame offset bytes).memory.read (1024 * frame + offset + i) = b := by
  obtain ⟨hlt, rfl⟩ := List.getElem?_eq_some_iff.1 hb
  have hin : i < (bytes.take (1024 - offset)).length := by
    rw [List.length_take]
    omega
  have hread := Memory.read_write_inside s.memory (1024 * frame + offset) i (bytes.take (1024 - offset)) hin
  rw [List.getElem_take] at hread
  rw [writeFrame_memory]
  exact hread

theorem writeFrame_outside {frame offset : Nat} {bytes : List Byte} {a : Nat}
    (ha : ¬(1024 * frame + offset ≤ a ∧ a < 1024 * frame + min (offset + bytes.length) 1024)) :
    (s.writeFrame frame offset bytes).memory.read a = s.memory.read a := by
  rw [writeFrame_memory]
  refine Memory.read_write_outside s.memory (1024 * frame + offset) a (bytes.take (1024 - offset)) ?_
  rw [List.length_take]
  omega

theorem exportWord_data {t : Transfer} {i : Nat} (hi : i < sectorLength t.size / 4) :
    s.exportWord t i = s.memory.read (1024 * t.frame + 4 * i) ++ s.memory.read (1024 * t.frame + 4 * i + 1)
      ++ s.memory.read (1024 * t.frame + 4 * i + 2) ++ s.memory.read (1024 * t.frame + 4 * i + 3) := by
  unfold State.exportWord
  rw [if_pos (show i < sectorWords t.size from hi), Memory.readBlock_eq_map, frameAddress_eq]
  rfl

theorem exportWord_check (t : Transfer) : s.exportWord t (sectorLength t.size / 4) = checkWordOf t.kind t.check := if_neg (Nat.lt_irrefl _)

end bytes

/-! ## Accesses (R162, R164, R166) -/

section accesses

variable {s : State} {t : Transfer} {w : Word}

theorem portRead_more (ht : s.transfer = some t) (hd : t.direction = .outbound) (hmore : t.moved + 1 < t.total) :
    s.portRead = (s.putBus (s.exportWord t t.moved)).setTransfer (some { t with moved := t.moved + 1 }) := by
  unfold State.portRead
  simp only [ht, hd]
  exact if_neg (Nat.not_le.2 hmore)

theorem portRead_last (ht : s.transfer = some t) (hd : t.direction = .outbound) (hlast : t.moved + 1 = t.total) :
    s.portRead = ((s.putBus (s.exportWord t t.moved)).setPinned t.key false).closeTransfer { t with moved := t.moved + 1 } .completed := by
  unfold State.portRead
  simp only [ht, hd]
  exact if_pos (Nat.le_of_eq hlast.symm)

theorem portRead_misuse (h : s.transfer = none ∨ ∃ t, s.transfer = some t ∧ t.direction = .inbound) : s.portRead = s.setMisuse.putBus 0 := by
  unfold State.portRead
  rcases h with ht | ⟨t, ht, hd⟩
  · simp only [ht]
  · simp only [ht, hd]

theorem portWrite_more (ht : s.transfer = some t) (hd : t.direction = .inbound) (hmore : t.moved + 1 < t.total) :
    s.portWrite w = (s.writeFrame t.frame (4 * t.moved) (bytesOfWord w)).setTransfer (some { t with moved := t.moved + 1 }) := by
  unfold State.portWrite
  simp only [ht, hd]
  exact if_neg (Nat.not_le.2 hmore)

theorem portWrite_last (ht : s.transfer = some t) (hd : t.direction = .inbound) (hlast : t.moved + 1 = t.total) :
    s.portWrite w = (s.writeFrame t.frame (4 * t.moved) (bytesOfWord w)).completeInbound { t with moved := t.moved + 1 } := by
  unfold State.portWrite
  simp only [ht, hd]
  exact if_pos (Nat.le_of_eq hlast.symm)

theorem portWrite_misuse (h : s.transfer = none ∨ ∃ t, s.transfer = some t ∧ t.direction = .outbound) : s.portWrite w = s.setMisuse := by
  unfold State.portWrite
  rcases h with ht | ⟨t, ht, hd⟩
  · simp only [ht]
  · simp only [ht, hd]

end accesses

/-! ## The completion claim (R166, R180, R181) -/

section claim

variable {s : State} {t : Transfer} {e : Entry} {clean : Bool}

theorem completionClaim_noEntry (he : s.entry t.key = none) : s.completionClaim t clean = (s.returnFrame t.frame, .noEntry) := by
  unfold State.completionClaim
  simp only [he]

theorem completionClaim_stale (he : s.entry t.key = some e)
    (hstale : e.size ≠ t.size ∨ checkLength (s.kindOf t.key.handle) ≠ checkLength t.kind) :
    s.completionClaim t clean = (s.returnFrame t.frame, .stale) := by
  unfold State.completionClaim
  simp only [he]
  exact if_pos (by simpa using hstale)

theorem completionClaim_fits (he : s.entry t.key = some e) (hsize : e.size = t.size) (hkind : s.kindOf t.key.handle = t.kind) :
    s.completionClaim t clean = s.placeHost t e clean := by
  unfold State.completionClaim
  simp only [he]
  exact if_neg (by simp [hsize, hkind])

theorem placeHost_identical {k : Nat} (hk : s.identical e (s.frameData t.frame t.size) t.check = some k) :
    s.placeHost t e clean = ((s.returnFrame t.frame).updateEntry e.key fun e => e.amend k .hostData, .identical k) := by
  unfold State.placeHost
  simp only [hk]

theorem placeHost_joins (hnew : s.identical e (s.frameData t.frame t.size) t.check = none) (hroom : e.candidates.length < 4) :
    s.placeHost t e clean = (s.updateEntry e.key fun e => (e.join (hostCandidate t.frame t.check clean)).amend e.candidates.length .hostData,
      .joined e.candidates.length) := by
  unfold State.placeHost
  simp only [hnew]
  exact if_pos hroom

theorem placeHost_replaces (hnew : s.identical e (s.frameData t.frame t.size) t.check = none) (hfull : e.candidates.length = 4) {k : Nat}
    {left : Candidate} (hk : e.weakest = some k) (hleft : e.candidates[k]? = some left) :
    s.placeHost t e clean = ((s.returnFrame left.frame).updateEntry e.key fun e =>
      (e.replace k (hostCandidate t.frame t.check clean)).amend 3 .hostData, .replaced k 3) := by
  unfold State.placeHost
  simp only [hnew, hk, frameOf_eq hleft, hfull]
  exact if_neg (by decide)

/-- A change written for the one entry of a key. -/
theorem updateEntry_congr (hs : s.TableSound) {k : Key} (he : s.entry k = some e) {f g : Entry → Entry} (h : f e = g e) :
    s.updateEntry k f = s.updateEntry k g := by
  refine congrArg s.setEntries (List.map_congr_left fun x hx => ?_)
  by_cases hxk : x.key = k
  · rw [unique_key hs.oneKey hx (entry_mem he).1 (hxk.trans (entry_key he).symm), h]
  · have hne : (x.key == k) = false := by simpa using hxk
    rw [hne]
    rfl

end claim

end Sys2Proof.Machine

namespace Sys2Proof

open Machine

/-- Settles O7: the cases of a read, then the words of an export. -/
theorem dataPortRead : Obligations.DataPortRead := by
  intro s
  refine ⟨fun t ht hd => ⟨fun hmore => congrArg _ (portRead_more ht hd hmore), fun hlast => ?last, fun i hi => exportWord_data s hi,
    fun hk => ?cartridge, fun hk => ?floppy⟩, fun h => congrArg _ (portRead_misuse h)⟩
  case last =>
    refine congrArg _ ((portRead_last ht hd hlast).trans ?_)
    unfold State.closeTransfer
    dsimp only
    rw [hd, hlast]
    rfl
  case cartridge => rw [exportWord_check, hk]; rfl
  case floppy => rw [exportWord_check, hk]; rfl

/-- Settles O8: a store of four bytes inside the frame. -/
theorem dataPortWrite : Obligations.DataPortWrite := by
  intro s w
  refine ⟨fun t ht hd hmore hframe => ⟨_, congrArg _ (portWrite_more ht hd hmore), ?_, ?_, ?_, ?_, fun a ha => ?_⟩,
    fun h => congrArg _ (portWrite_misuse h)⟩
  · exact writeFrame_inside s (i := 0) rfl (by omega)
  · exact writeFrame_inside s (i := 1) rfl (by omega)
  · exact writeFrame_inside s (i := 2) rfl (by omega)
  · exact writeFrame_inside s (i := 3) rfl (by omega)
  · refine writeFrame_outside s ?_
    rw [show (bytesOfWord w).length = 4 from rfl]
    omega

/-- Settles O9: what a store does and which candidate leaves, then the completion claim case by case. -/
theorem inboundCompletes : Obligations.InboundCompletes := by
  refine ⟨fun _ _ _ => rfl, fun s handle m hm => by unfold State.kindOf; rw [hm], fun _ => rfl,
    fun s frame offset bytes => ⟨_, rfl, fun i b hb hi => writeFrame_inside s hb hi, fun a ha => writeFrame_outside s ha⟩,
    fun e k => ⟨fun h => weakest_of_bad h, fun h => weakest_of_clean h⟩, ?_⟩
  intro s u t w hs ht hd hlast hu
  -- The transfer ends by whatever the claim `r` on the stored word made of the table.
  have hends : ∀ r, u.completionClaim { t with moved := t.moved + 1 } (dataCheck t.kind (u.frameData t.frame t.size) == t.check) = r →
      exec (.dataPortWrite w) s
        = .next { r.1 with transfer := none, closing := some ⟨.inbound, t.key, t.queue, t.tag, t.total, t.total, r.2⟩ } := by
    intro r hr
    refine congrArg _ ((portWrite_last ht hd hlast).trans ?_)
    rw [← hu]
    unfold State.completeInbound State.closeTransfer
    dsimp only
    rw [hr, hd, hlast]
    rfl
  have hentry : u.entry t.key = s.entry t.key := by rw [hu]; rfl
  have hkinds : u.kindOf t.key.handle = s.kindOf t.key.handle := by rw [hu]; rfl
  have hpool : u.pool = s.pool := by rw [hu]; rfl
  have hentries : u.entries = s.entries := by rw [hu]; rfl
  refine ⟨fun he => ?noEntry, fun e he hstale => ?stale, fun e he hsize hkind => ⟨fun k hk => ?identical, fun c hnew hc =>
    ⟨fun hroom => ?joins, fun k left hfull hk hleft => ?replaces⟩⟩⟩
  case noEntry =>
    rw [← hpool]
    exact hends _ (completionClaim_noEntry (hentry.trans he))
  case stale =>
    rw [← hpool]
    exact hends _ (completionClaim_stale (hentry.trans he) (by rw [hkinds]; exact hstale))
  case identical =>
    rw [← hpool, ← hentries]
    exact hends _ ((completionClaim_fits (hentry.trans he) hsize (hkinds.trans hkind)).trans (placeHost_identical hk))
  case joins =>
    subst hc
    rw [← hentries]
    refine (hends _ ((completionClaim_fits (hentry.trans he) hsize (hkinds.trans hkind)).trans (placeHost_joins hnew hroom))).trans ?_
    have hat : u.entry e.key = some e := by rw [entry_key he, hentry, he]
    dsimp only
    rw [updateEntry_congr (hs.of_eq hentries) hat (g := fun x =>
      (x.join (hostCandidate t.frame t.check (dataCheck t.kind (u.frameData t.frame t.size) == t.check))).amend e.candidates.length .hostData) rfl]
    rfl
  case replaces =>
    subst hc
    rw [← hpool, ← hentries]
    exact hends _ ((completionClaim_fits (hentry.trans he) hsize (hkinds.trans hkind)).trans (placeHost_replaces hnew hfull hk hleft))

end Sys2Proof

/-! Response records (R204) and what the intake refuses of itself (R190, R203). -/

namespace Sys2Proof.Machine

open Laws

theorem responseRecord_eq (kind : ResponseKind) (q : Queue) (tag command : BitVec 8) (code : Nat) (body : List Word) :
    responseRecord kind q tag code command body
      = (bits 2 kind.number ++ bits 1 (queueNumber q) ++ bits 5 (if body = [] then 2 else body.length + 1) ++ tag ++ bits 8 code ++ command)
        :: (if body = [] then [0] else body) := by
  unfold responseRecord
  cases body <;> rfl

theorem header_laidOut (kind : ResponseKind) (q : Queue) (tag command : BitVec 8) (code n : Nat) :
    laidOut (bits 2 kind.number ++ bits 1 (queueNumber q) ++ bits 5 n ++ tag ++ bits 8 code ++ command)
      [(31, 30, [ResponseKind.answer, .refusal, .notice].idxOf kind), (29, 29, [Queue.console, .transfer].idxOf q), (28, 24, n),
       (23, 16, tag.toNat), (15, 8, code), (7, 0, command.toNat)] := by
  have hkind : [ResponseKind.answer, .refusal, .notice].idxOf kind = kind.number := by cases kind <;> rfl
  have hqueue : [Queue.console, .transfer].idxOf q = queueNumber q := by cases q <;> rfl
  have htag := tag.isLt
  have hcommand := command.isLt
  rw [hkind, hqueue]
  simp only [laidOut_cons, toNat_joined, BitVec.toNat_ofNat]
  refine ⟨?_, ?_, ?_, ?_, ?_, ?_, laidOut_nil _⟩
  all_goals omega

theorem refusalWord_laidOut_none (command : BitVec 8) :
    laidOut (refusalWord none command) [(31, 31, 0), (30, 30, 0), (29, 24, 63), (23, 8, 0), (7, 0, command.toNat)] := by
  have hcommand := command.isLt
  unfold refusalWord absentHandle
  simp only [laidOut_cons, toNat_joined, BitVec.toNat_ofNat]
  refine ⟨?_, ?_, ?_, ?_, ?_, laidOut_nil _⟩
  all_goals omega

theorem refusalWord_laidOut_some (h : Nat) (command : BitVec 8) :
    laidOut (refusalWord (some h) command) [(31, 31, 1), (30, 30, 0), (29, 24, h), (23, 8, 0), (7, 0, command.toNat)] := by
  have hcommand := command.isLt
  unfold refusalWord
  simp only [laidOut_cons, toNat_joined, BitVec.toNat_ofNat]
  refine ⟨?_, ?_, ?_, ?_, ?_, laidOut_nil _⟩
  all_goals omega

theorem numberWord_laidOut (n : Nat) : laidOut (numberWord n) [(31, 0, n)] := by
  simp only [laidOut_cons, numberWord, BitVec.toNat_ofNat]
  refine ⟨?_, laidOut_nil _⟩
  omega

/-! ## What the intake refuses -/

section refusals

variable {s : State} {q : Queue} {tag : BitVec 8} {c : HostCommand}

theorem malformed_not_unknown (hm : malformed c = true) : isUnknown c = false := by
  cases c with
  | unknown => cases hm
  | _ => rfl

theorem wellFormed_of_not_unknown (hc : isUnknown c = false) : c.wellFormed = true := by
  cases c with
  | unknown => cases hc
  | _ => rfl

theorem exec_malformed (hs : s.Ready) (hm : malformed c = true) :
    exec (instrOf q tag c) s = .next (s.answered q (refusalOf q tag c.code .malformed [])) := by
  have hknown := malformed_not_unknown hm
  rw [State.exec_ready s q tag c hs (wellFormed_of_not_unknown hknown)]
  unfold State.judge
  rw [hknown, hm, if_neg (by decide), if_pos rfl, State.refuse_taken]

theorem exec_consoleOnly (hs : s.Ready) (hm : malformed c = false) (hc : consoleOnly c = true) :
    exec (instrOf .transfer tag c) s = .next (s.answered .transfer (refusalOf .transfer tag c.code .level [])) := by
  have hknown : isUnknown c = false := by
    cases c with
    | unknown => cases hc
    | _ => rfl
  rw [State.exec_ready s .transfer tag c hs (wellFormed_of_not_unknown hknown)]
  unfold State.judge
  rw [hknown, hm, hc, if_neg (by decide), if_neg (by decide), show (true && Queue.transfer == Queue.transfer) = true from rfl, if_pos rfl, State.refuse_taken]

theorem exec_unknown {code : BitVec 8} (hs : s.Ready) (hc : namesCommand code = false) :
    exec (.unknownCommand q tag code) s = .next (s.answered q (refusalOf q tag code .unknownCommand [])) := by
  refine (State.exec_ready s q tag (.unknown code) hs (by rw [HostCommand.wellFormed, hc]; rfl)).trans ?_
  unfold State.judge
  rw [show isUnknown (.unknown code) = true from rfl, if_pos rfl, State.refuse_taken]
  rfl

/-- The command passes the intake's own tests and goes to its owner (R190, step 5). -/
theorem exec_performs (hs : s.Ready) (hu : isUnknown c = false) (hm : malformed c = false) (hc : consoleOnly c = false ∨ q = .console) :
    exec (instrOf q tag c) s = .next ((s.taken q).perform ⟨q, tag, c.code, s.link.level q⟩ c) := by
  rw [State.exec_ready s q tag c hs (wellFormed_of_not_unknown hu)]
  unfold State.judge
  rw [hu, hm, if_neg (by decide), if_neg (by decide), if_neg]
  rcases hc with hc | rfl
  · rw [hc, Bool.false_and]; decide
  · rw [show (Queue.console == Queue.transfer) = false from rfl, Bool.and_false]; decide

end refusals

end Sys2Proof.Machine

namespace Sys2Proof

open Machine

/-- Settles O10: the layouts field by field, then the intake's three tests in their order. -/
theorem intakeRefusals : Obligations.IntakeRefusals := by
  refine ⟨⟨fun kind q tag command code body => ⟨_, responseRecord_eq kind q tag command code body, header_laidOut kind q tag command code _⟩,
    fun command => ⟨refusalWord_laidOut_none command, fun h => refusalWord_laidOut_some h command⟩,
    fun n => ⟨numberWord_laidOut n, rfl⟩, ?absent, rfl, by decide, by decide⟩,
    fun s q tag hs => ⟨fun code hc => exec_unknown hs hc, fun c hc => exec_malformed hs ?malformed,
      fun c hm hc => exec_consoleOnly hs hm ?consoleOnly⟩⟩
  case absent => exact (laidOut_cons ..).2 ⟨by decide, laidOut_nil _⟩
  case malformed =>
    rcases hc with ⟨p, hp, ⟨f, rfl⟩ | rfl | rfl | rfl⟩ | ⟨p, f, rfl, hp⟩ | ⟨h, g, m, rfl, hp⟩ | ⟨h, f, rfl, hp⟩
      | ⟨slot, hp, ⟨m, a, rfl⟩ | rfl | rfl⟩ | ⟨k, v, hp, rfl | ⟨states, rfl⟩⟩ | ⟨k, v, states, rfl, hp⟩ | ⟨k, n, rfl, hp⟩ | ⟨k, n, rfl, hp⟩
      | ⟨scope, hp, ⟨b, rfl⟩ | ⟨h, rfl⟩⟩ | ⟨level, rfl, hp⟩ | ⟨part, n, rfl, hp⟩
    all_goals simp [malformed, hp]
    · simpa [or_assoc] using hp
    · simpa [or_assoc] using hp
    · exact .inr hp
    · exact hp
  case consoleOnly =>
    rcases hc with ⟨_, _, rfl⟩ | ⟨_, rfl⟩ | ⟨_, _, _, rfl⟩ | ⟨_, rfl⟩ | ⟨_, rfl⟩ | ⟨_, rfl⟩ | rfl
    all_goals rfl

end Sys2Proof

/-! The commands that set up a drive port and move its medium (R3, R4, R23, R24). -/

namespace Sys2Proof.Machine

section conditions

variable {s : State} {p : Fin 4}

theorem portHasJob_iff : s.portHasJob p = true ↔ ∃ j ∈ s.jobs, j.drive = p := by
  simp [State.portHasJob]

theorem portHasJob_eq_false : s.portHasJob p = false ↔ ∀ j ∈ s.jobs, j.drive ≠ p := by
  simp [State.portHasJob]

theorem driveMounted_at_iff (h : Nat) :
    (match s.medium h with
      | some m => m.drive == p
      | none => false) = true ↔ ∃ m, s.medium h = some m ∧ m.drive = p := by
  cases s.medium h <;> simp

theorem driveMounted_iff : s.driveMounted p = true ↔ ∃ h ∈ handles, ∃ m, s.medium h = some m ∧ m.drive = p :=
  List.any_eq_true.trans (exists_congr fun h => and_congr_right fun _ => driveMounted_at_iff h)

theorem driveMounted_eq_false : s.driveMounted p = false ↔ ∀ h ∈ handles, ∀ m, s.medium h = some m → m.drive ≠ p := by
  rw [← Bool.not_eq_true, driveMounted_iff]
  push Not
  rfl

theorem configInRange_iff {f : ConfigField} : configInRange f = true ↔
    (1 ≤ f.settle.toNat ∧ f.settle.toNat ≤ 60) ∧ (100 ≤ f.index.toNat ∧ f.index.toNat ≤ 2000)
      ∧ (500 ≤ f.mark.toNat ∧ f.mark.toNat ≤ 8000) ∧ (4 ≤ f.interval.toNat ∧ f.interval.toNat ≤ 64) := by
  simp [configInRange, and_assoc]

theorem malformed_port {port : BitVec 8} (hp : port.toNat = p.val) : decide (3 < port.toNat) = false := by
  have := p.isLt
  exact decide_eq_false (by omega)

theorem retensionBlocked_iff : s.retensionBlocked p = true ↔ ∃ j, s.activeJob p = some j ∧ j.state ≠ .retensionWait := by
  unfold State.retensionBlocked
  cases s.activeJob p <;> simp

theorem retensionBlocked_eq_false (h : ∀ j ∈ s.jobs, j.drive = p → j.state = .queued ∨ j.state = .retensionWait) :
    s.retensionBlocked p = false := by
  rw [← Bool.not_eq_true, retensionBlocked_iff]
  rintro ⟨j, hj, hne⟩
  obtain ⟨hmem, hdrive, hqueued⟩ := activeJob_mem hj
  exact (h j hmem hdrive).elim hqueued hne

end conditions

@[simp] theorem port_taken (s : State) (q : Queue) (p : Fin 4) : (s.taken q).port p = s.port p := rfl

theorem updatePort_taken (s : State) (q : Queue) (p : Fin 4) (f : Port → Port) :
    (s.taken q).updatePort p f = ({ s with ports := s.ports.set p (f (s.port p)) } : State).taken q := rfl

theorem updatePort_answered (s : State) (q : Queue) (r : List Word) (p : Fin 4) (f : Port → Port) :
    (s.answered q r).updatePort p f = ({ s with ports := s.ports.set p (f (s.port p)) } : State).answered q r := rfl

/-! ## DRIVE CONFIG (R3) -/

section config

variable {s : State} {tag port : BitVec 8} {p : Fin 4} {f : ConfigField}

theorem exec_driveConfig (hs : s.Ready) (hp : port.toNat = p.val) (hk : f.kind ≠ 3) :
    exec (.driveConfig .console tag port f) s
      = .next ((s.taken .console).driveConfig ⟨.console, tag, 1, s.link.level .console⟩ p f) := by
  have hm : malformed (.driveConfig port f) = false := by
    rw [malformed, malformed_port hp, Bool.false_or]
    exact beq_eq_false_iff_ne.2 hk
  have h := exec_performs (q := .console) (tag := tag) hs rfl hm (.inr rfl)
  rwa [State.perform, portOf_eq hp] at h

theorem exec_driveConfig_accepted (hs : s.Ready) (hp : port.toNat = p.val) (hk : f.kind ≠ 3)
    (hstate : (s.port p).state = .offline ∨ (s.port p).state = .idle) (hjobs : s.portHasJob p = false)
    (hmount : (configKind f != (s.port p).kind && s.driveMounted p) = false) (hrange : configInRange f = true) :
    exec (.driveConfig .console tag port f) s
      = .next (({ s with ports := s.ports.set p ((s.port p).configure f) } : State).answered .console
          (answerOf .console tag 1 .done [numberWord ((s.port p).configure f).state.number])) := by
  have hfault : ((s.port p).state == .faulted) = false := by
    rcases hstate with h | h <;> rw [h] <;> rfl
  have hfree : (!((s.port p).state == .offline || (s.port p).state == .idle) || s.portHasJob p) = false := by
    rw [hjobs]
    rcases hstate with h | h <;> rw [h] <;> rfl
  have hjobs' : (s.taken .console).portHasJob p = s.portHasJob p := rfl
  have hmount' : (s.taken .console).driveMounted p = s.driveMounted p := rfl
  rw [exec_driveConfig hs hp hk, State.driveConfig]
  simp only [port_taken, hjobs', hmount', hfault, hfree, hmount, hrange, Bool.not_true, Bool.false_eq_true, if_false, updatePort_taken,
    State.answer_taken]
  rw [show State.port { s with ports := s.ports.set p ((s.port p).configure f) } p = (s.port p).configure f from Four.get_set_self ..]

theorem configure_noDrive (q : Port) (h : configKind f = .noDrive) :
    q.configure f = { q.takeConfig f with state := .offline, ready := false, headCylinder := none, passCount := 0 } := by
  rw [Port.configure, h]

theorem configure_new (q : Port) (h : configKind f ≠ .noDrive) (hq : configKind f ≠ q.kind) :
    q.configure f = ({ q.takeConfig f with state := .idle, headCylinder := none, passCount := 0 } : Port).inquire := by
  rw [Port.configure]
  cases hk : configKind f <;> rw [hk] at h hq
  case noDrive => exact absurd rfl h
  all_goals exact if_pos (bne_iff_ne.2 hq)

theorem configure_same (q : Port) (h : configKind f ≠ .noDrive) (hq : configKind f = q.kind) :
    q.configure f = ({ q.takeConfig f with state := .idle, passCount := min q.passCount f.interval.toNat } : Port).inquire := by
  rw [Port.configure]
  cases hk : configKind f <;> rw [hk] at h hq
  case noDrive => exact absurd rfl h
  all_goals exact if_neg (by rw [← hq]; decide)

end config

end Sys2Proof.Machine

namespace Sys2Proof

open Machine

/-- Settles O11: the tests in their order, and the port by the kind it is given. -/
theorem driveConfigSetsPort : Obligations.DriveConfigSetsPort := by
  intro s tag port p f kind hs hp hk hkind
  have hkind' : configKind f = kind := hkind.symm
  have hjobs' : (s.taken .console).portHasJob p = s.portHasJob p := rfl
  have hmount' : (s.taken .console).driveMounted p = s.driveMounted p := rfl
  refine ⟨fun hfault => ?faulted, fun hbusy => ?busy, fun hstate hjobs => ⟨fun hne hmounted => ?inUse, fun hfree => ⟨fun hrange => ?range, ?accepted⟩⟩⟩
  case faulted =>
    rw [State.Refuses, exec_driveConfig hs hp hk, State.driveConfig]
    simp [hfault]
  case busy =>
    have hfault : (s.port p).state ≠ .faulted := hbusy.elim And.left And.left
    have hb : (!((s.port p).state == .offline || (s.port p).state == .idle) || s.portHasJob p) = true := by
      rcases hbusy with ⟨-, hoff, hidle⟩ | ⟨-, hj⟩
      · simp [hoff, hidle]
      · simp [portHasJob_iff.2 hj]
    rw [State.Refuses, exec_driveConfig hs hp hk, State.driveConfig]
    simp only [port_taken, hjobs', hb, beq_eq_false_iff_ne.2 hfault, Bool.false_eq_true, if_false, if_true, State.refuse_taken]
  case accepted =>
    intro h1 h2 h3 h4 configured hconf
    have hmount : (configKind f != (s.port p).kind && s.driveMounted p) = false := by
      rcases hfree with h | h
      · simp [hkind', h]
      · simp [driveMounted_eq_false.2 h]
    have hexec := exec_driveConfig_accepted (tag := tag) hs hp hk hstate (portHasJob_eq_false.2 hjobs) hmount
      (configInRange_iff.2 ⟨h1, h2, h3, h4⟩)
    subst hconf
    refine ⟨fun hnone => ?_, fun hnone hne => ?_, fun hnone heq => ?_⟩
    · rw [hexec, configure_noDrive _ (hkind'.trans hnone), ← hkind']
      rfl
    · rw [hexec, configure_new _ (hkind' ▸ hnone) (hkind' ▸ hne), ← hkind']
      rfl
    · rw [hexec, configure_same _ (hkind' ▸ hnone) (hkind'.trans heq), ← hkind']
      rfl
  all_goals
    have hfault : ((s.port p).state == .faulted) = false := by rcases hstate with h | h <;> rw [h] <;> rfl
    have hb : (!((s.port p).state == .offline || (s.port p).state == .idle) || s.portHasJob p) = false := by
      rw [portHasJob_eq_false.2 hjobs]
      rcases hstate with h | h <;> rw [h] <;> rfl
    rw [State.Refuses, exec_driveConfig hs hp hk, State.driveConfig]
  case inUse =>
    have hm : (configKind f != (s.port p).kind && s.driveMounted p) = true := by
      rw [hkind', driveMounted_iff.2 hmounted, bne_iff_ne.2 hne, Bool.true_and]
    simp only [port_taken, hjobs', hmount', hb, hfault, hm, Bool.false_eq_true, if_false, if_true, State.refuse_taken]
  case range =>
    have hm : (configKind f != (s.port p).kind && s.driveMounted p) = false := by
      rcases hfree with h | h
      · simp [hkind', h]
      · simp [driveMounted_eq_false.2 h]
    have hr : configInRange f = false := by
      rw [← Bool.not_eq_true, configInRange_iff]
      exact hrange
    simp only [port_taken, hjobs', hmount', hb, hfault, hm, hr, Bool.not_false, Bool.false_eq_true, if_false, if_true, State.refuse_taken]

end Sys2Proof

/-! PARK and RETENSION (R18, R21, R23, R24): which test refuses them, and what they make of the port. -/

namespace Sys2Proof.Machine

section taken

variable {s t : State} {i : Instr} {q : Queue} {tag command : BitVec 8} {level : Nat} {body : List Word}

theorem refuses_of_exec {code : RefusalCode} (h : exec i s = .next t) (ht : t = (s.taken q).refuse ⟨q, tag, command, level⟩ code body) :
    s.Refuses i q tag command code body :=
  h.trans (congrArg _ (ht.trans (State.refuse_taken ..)))

theorem refusesNaming_of_exec {code : RefusalCode} {handle : Nat} (h : exec i s = .next t)
    (ht : t = (s.taken q).refuseHandle ⟨q, tag, command, level⟩ code handle body) : s.RefusesNaming i q tag command code handle body :=
  h.trans (congrArg _ (ht.trans (State.refuseHandle_taken ..)))

theorem answers_of_exec {u : State} {code : AnswerCode} (h : exec i s = .next t)
    (ht : t = (u.taken q).answer ⟨q, tag, command, level⟩ code body) : exec i s = .next (u.answered q (answerOf q tag command code body)) :=
  h.trans (congrArg _ (ht.trans (State.answer_taken ..)))

end taken

section moves

variable {s : State} {q : Queue} {tag port : BitVec 8} {p : Fin 4}

theorem exec_park (hs : s.Ready) (hp : port.toNat = p.val) :
    exec (.park q tag port) s = .next ((s.taken q).park ⟨q, tag, 2, s.link.level q⟩ p) := by
  have h := exec_performs (q := q) (tag := tag) (c := .park port) hs rfl (malformed_port hp) (.inl rfl)
  rwa [State.perform, portOf_eq hp] at h

theorem exec_retension (hs : s.Ready) (hp : port.toNat = p.val) :
    exec (.retension q tag port) s = .next ((s.taken q).retension ⟨q, tag, 3, s.link.level q⟩ p) := by
  have h := exec_performs (q := q) (tag := tag) (c := .retension port) hs rfl (malformed_port hp) (.inl rfl)
  rwa [State.perform, portOf_eq hp] at h

theorem park_offline (c : Ctx) (h : (s.port p).state = .offline) : s.park c p = s.refuse c .driveOffline [] := by
  simp [State.park, h]

theorem park_faulted (c : Ctx) (h : (s.port p).state = .faulted) :
    s.park c p = s.refuse c .driveFaulted [numberWord (faultNumber (s.port p).fault)] := by
  simp [State.park, h]

theorem park_busy (c : Ctx) (h : (s.port p).state ∈ [.positioning, .streaming, .parking, .retensioning]
    ∨ ((s.port p).state ∈ [.idle, .onBand] ∧ (s.activeJob p).isNone = false)) : s.park c p = s.refuse c .driveBusy [] := by
  rw [State.park]
  rcases h with h | ⟨h, hactive⟩
  · simp only [List.mem_cons, List.not_mem_nil, or_false] at h
    rcases h with h | h | h | h <;> rw [h] <;> rfl
  · simp only [List.mem_cons, List.not_mem_nil, or_false] at h
    rw [hactive]
    rcases h with h | h <;> rw [h] <;> rfl

theorem park_accepted (c : Ctx) (h : (s.port p).state ∈ [.idle, .onBand]) (hactive : (s.activeJob p).isNone = true) :
    s.park c p = (s.answer c .accepted []).updatePort p Port.startPark := by
  rw [State.park, hactive]
  simp only [List.mem_cons, List.not_mem_nil, or_false] at h
  rcases h with h | h <;> rw [h] <;> rfl

theorem startPark_cartridge {x : Port} (h : x.kind = .cartridge) :
    x.startPark = { x with state := .parking, band := none, atStart := false, overtimeTimer := some 10000, motion := .still
                           requests := x.requests ++ [.rewind] } := by
  rw [Port.startPark, h]
  rfl

theorem startPark_floppy {x : Port} (h : x.kind = .floppy) :
    x.startPark = { x with state := .parking, band := none, atStart := false, overtimeTimer := some 10000, motion := .still
                           motor := true, spinUp := x.spinUp || !x.motor, headCylinder := x.headCylinder.map (· - 1)
                           settleTimer := some x.settleTime, stepTimer := some 3, stepped := true
                           requests := x.requests ++ (if x.motor then [] else [.motorOn]) ++ [.stepOut] } := by
  rw [Port.startPark, h]
  cases hm : x.motor
  · simp [Port.motorStart, Port.stepOutward, Port.ask, Config.overtime, Config.stepInterval]
  · simp [Port.motorStart, Port.stepOutward, Port.ask, Config.overtime, Config.stepInterval]

/-! ## RETENSION -/

theorem retension_offline (c : Ctx) (h : (s.port p).state = .offline) : s.retension c p = s.refuse c .driveOffline [] := by
  simp [State.retension, h]

theorem retension_faulted (c : Ctx) (h : (s.port p).state = .faulted) :
    s.retension c p = s.refuse c .driveFaulted [numberWord (faultNumber (s.port p).fault)] := by
  simp [State.retension, h]

/-- Past the tests of the port's state and kind, RETENSION asks whether the port may leave its work, and then whether it is ready. -/
theorem retension_cartridge (c : Ctx) (h : (s.port p).state ∉ [.offline, .faulted]) (hk : (s.port p).kind = .cartridge) :
    s.retension c p =
      if !((s.port p).state == .idle || (s.port p).state == .onBand) || s.retensionBlocked p then s.refuse c .driveBusy []
      else if !(s.port p).ready then s.refuse c .notReady []
      else (s.answer c .accepted []).updatePort p Port.startRetension := by
  simp only [List.mem_cons, List.not_mem_nil, or_false, not_or] at h
  rw [State.retension, hk]
  simp only [beq_eq_false_iff_ne.2 h.1, beq_eq_false_iff_ne.2 h.2, Bool.false_eq_true, if_false, bne_self_eq_false]

theorem retension_notCartridge (c : Ctx) (h : (s.port p).state ∉ [.offline, .faulted]) (hk : (s.port p).kind ≠ .cartridge) :
    s.retension c p = s.refuse c .notCartridge [] := by
  simp only [List.mem_cons, List.not_mem_nil, or_false, not_or] at h
  rw [State.retension]
  simp only [beq_eq_false_iff_ne.2 h.1, beq_eq_false_iff_ne.2 h.2, Bool.false_eq_true, if_false, bne_iff_ne.2 hk, if_true]

theorem idle_or_onBand_iff {x : PortState} : (x == .idle || x == .onBand) = true ↔ x ∈ [.idle, .onBand] := by
  simp

end moves

end Sys2Proof.Machine

namespace Sys2Proof

open Machine

/-- Settles O12: each command's tests in their order, on the state with its place reserved. -/
theorem parkAndRetension : Obligations.ParkAndRetension := by
  intro s q tag port p hs hp
  have hactive : ((s.taken q).activeJob p).isNone = (s.activeJob p).isNone := rfl
  have hblocked : (s.taken q).retensionBlocked p = s.retensionBlocked p := rfl
  refine ⟨?stopped, fun hbusy => ?busy, fun hstate hjobs parked hparked => ?parked, fun hstate => ⟨fun hk => ?tapeless, fun hk =>
    ⟨fun hwork => ?working, fun j hj hne => ?blocked, fun hrest hjobs => ?rest⟩⟩⟩
  case stopped =>
    rintro i code (⟨rfl, rfl⟩ | ⟨rfl, rfl⟩)
    · refine ⟨fun h => ?_, fun h => ?_⟩
      · exact refuses_of_exec (exec_park hs hp) (park_offline _ h)
      · exact refuses_of_exec (exec_park hs hp) (park_faulted _ h)
    · refine ⟨fun h => ?_, fun h => ?_⟩
      · exact refuses_of_exec (exec_retension hs hp) (retension_offline _ h)
      · exact refuses_of_exec (exec_retension hs hp) (retension_faulted _ h)
  case busy =>
    refine refuses_of_exec (exec_park hs hp) (park_busy _ (hbusy.imp id (And.imp id ?_)))
    rintro ⟨j, hj, hdrive, hne⟩
    rw [hactive, ← Bool.not_eq_true, activeJob_isNone]
    exact fun h => hne (h j hj hdrive)
  case parked =>
    have hexec : exec (.park q tag port) s
        = .next (({ s with ports := s.ports.set p (s.port p).startPark } : State).answered q (answerOf q tag 2 .accepted [])) := by
      rw [exec_park hs hp, park_accepted (s := s.taken q) _ hstate (activeJob_isNone.2 hjobs), State.answer_taken, updatePort_answered]
    subst hparked
    refine ⟨fun hk => ?_, fun hk => ?_⟩
    · rw [hexec, startPark_cartridge hk]
    · rw [hexec, startPark_floppy hk]
  case tapeless => exact refuses_of_exec (exec_retension hs hp) (retension_notCartridge _ hstate hk)
  case working =>
    have hfree : ((s.port p).state == .idle || (s.port p).state == .onBand) = false := by
      rw [← Bool.not_eq_true, idle_or_onBand_iff]
      exact hwork
    exact refuses_of_exec (exec_retension hs hp) (by
        rw [retension_cartridge (s := s.taken q) _ hstate hk, port_taken, hfree, Bool.not_false, Bool.true_or, if_pos rfl])
  case blocked =>
    exact refuses_of_exec (exec_retension hs hp) (by
        rw [retension_cartridge (s := s.taken q) _ hstate hk, hblocked, retensionBlocked_iff.2 ⟨j, hj, hne⟩, Bool.or_true,
      if_pos rfl])
  case rest =>
    have hfree : (!((s.port p).state == .idle || (s.port p).state == .onBand) || s.retensionBlocked p) = false := by
      rw [idle_or_onBand_iff.2 hrest, retensionBlocked_eq_false hjobs]
      rfl
    refine ⟨fun hready => ?_, fun hready => ?_⟩
    · exact refuses_of_exec (exec_retension hs hp) (by
        rw [retension_cartridge (s := s.taken q) _ hstate hk, port_taken, hblocked, hfree, hready, if_neg (by decide),
        Bool.not_false, if_pos rfl])
    · rw [exec_retension hs hp, retension_cartridge (s := s.taken q) _ hstate hk, port_taken, hblocked, hfree, hready, if_neg (by decide),
        Bool.not_true, if_neg (by decide), State.answer_taken, updatePort_answered]
      rfl

end Sys2Proof

/-! Completion notices (R91, R206) and DRIVE RESET (R4, R26, R87). -/

namespace Sys2Proof.Machine

open Laws

/-! ## The completion notice -/

theorem reasonNumber_lt (e : Ending) : e.reasonNumber < 16 := by
  rcases e with _ | ⟨_ | _⟩ | ⟨_ | _⟩ <;> decide

theorem idxOf_ending (e : Ending) :
    [Ending.done, .failed .notPresent, .failed .wrongBand, .failed .noIndex, .failed .noMark, .failed .mediaGone, .failed .positionFault,
      .failed .retensionFault, .cancelled .host, .cancelled .driveReset, .cancelled .restart].idxOf e = e.reasonNumber := by
  rcases e with _ | r | r
  · rfl
  · cases r <;> rfl
  · cases r <;> rfl

section notice

variable (j : Job) (e : Ending) (band : List Entry)

/-- The words of a notice's body but for its key word, in their fields (R206). -/
theorem noticeBody_laidOut : ∃ w1 w3 w4 w5 w6 w7 w8,
    j.noticeBody e band = [w1, keyWord j.handle j.cylinder j.head 0, w3, w4, w5, w6, w7, w8]
    ∧ laidOut w1 [(31, 24, j.id), (23, 22, e.outcomeNumber), (21, 18, e.reasonNumber), (17, 14, j.passesRun), (13, 13, j.holdBroken.toNat),
        (12, 10, j.tolerance), (9, 4, j.viaHandle.getD 63), (3, 0, 0)]
    ∧ laidOut w3 [(31, 26, countState band .settled), (25, 20, countState band .synthesized), (19, 14, countState band .tentative),
        (13, 8, countState band .disputed), (7, 2, countState band .exhausted), (1, 0, 0)]
    ∧ laidOut w4 [(31, 26, countState band .missing), (25, 20, j.skipped), (19, 12, j.faults), (11, 0, 0)]
    ∧ laidOut w5 [(31, 16, j.readingsTaken), (15, 0, j.readingsDropped)]
    ∧ laidOut w6 [(31, 16, j.overrun), (15, 0, j.strayHeaders)]
    ∧ laidOut w7 [(31, 16, j.foreignHeaders), (15, 0, j.headerFailures)]
    ∧ laidOut w8 [(31, 16, j.sizeMismatches), (15, 0, 0)] := by
  refine ⟨_, _, _, _, _, _, _, rfl, ?_, ?_, ?_, ?_, ?_, ?_, ?_⟩
  case refine_1 =>
    have hflag := toNat_flag_lt j.holdBroken
    simp only [laidOut_cons, toNat_joined, BitVec.toNat_ofNat, toNat_flag] at hflag ⊢
    refine ⟨?_, ?_, ?_, ?_, ?_, ?_, ?_, ?_, laidOut_nil _⟩
    all_goals omega
  all_goals
    simp only [laidOut_cons, toNat_joined, BitVec.toNat_ofNat]
    simp only [laidOut_nil, and_true]
    omega

end notice

theorem ids_contains (g : Geometry) (sector : Nat) :
    g.ids.contains sector = true ↔ g.firstId ≤ sector ∧ sector < g.firstId + g.sectors := by
  rw [List.contains_iff_mem, Geometry.ids, List.mem_map]
  constructor
  · rintro ⟨i, hi, rfl⟩
    have := List.mem_range.1 hi
    omega
  · rintro ⟨h1, h2⟩
    exact ⟨sector - g.firstId, List.mem_range.2 (by omega), by omega⟩

theorem inBandOf_iff (k : Key) (j : Job) : k.inBandOf j = true ↔ k.OfBand j := by
  simp [Key.inBandOf, Key.OfBand, and_assoc]

/-- The entries a notice counts are those of the band at the sector ids of its geometry (R91). -/
theorem bandEntries_eq {s : State} {j : Job} {m : Medium} (hm : s.medium j.handle = some m) :
    s.bandEntries j = s.entries.filter fun e => decide (e.key.OfBand j ∧ m.geometry.firstId ≤ e.key.sector
      ∧ e.key.sector < m.geometry.firstId + m.geometry.sectors) := by
  refine List.filter_congr fun e _ => ?_
  rw [idsOf_eq hm, Bool.eq_iff_iff, Bool.and_eq_true, decide_eq_true_eq, inBandOf_iff, ← ids_contains]
  rfl

/-! ## DRIVE RESET -/

section reset

variable {s : State} {tag port : BitVec 8} {p : Fin 4}

theorem exec_driveReset (hs : s.Ready) (hp : port.toNat = p.val) :
    exec (.driveReset .console tag port) s = .next ((s.taken .console).driveReset ⟨.console, tag, 4, s.link.level .console⟩ p) := by
  have h := exec_performs (q := .console) (tag := tag) (c := .driveReset port) hs rfl (malformed_port hp) (.inr rfl)
  rwa [State.perform, portOf_eq hp] at h

theorem driveReset_retensioning (c : Ctx) (h : (s.port p).state = .retensioning) : s.driveReset c p = s.refuse c .driveBusy [] := by
  rw [State.driveReset]
  simp only [h]

theorem driveReset_offline (c : Ctx) (h : (s.port p).state = .offline) : s.driveReset c p = s.answer c .done [numberWord 0, numberWord 0] := by
  rw [State.driveReset]
  simp only [h]

/-- The state a DRIVE RESET leaves, before it answers. -/
def State.resetWork (s : State) (p : Fin 4) : State :=
  (({ s with ports := s.ports.set p (s.port p).resetDone } : State).resetJobs (s.portJobs p)).afterReset (s.activeJob p)

theorem driveReset_works (c : Ctx) (h : (s.port p).state ∉ [.retensioning, .offline]) :
    s.driveReset c p
      = (s.resetWork p).answer c .done [numberWord (s.cancelledBy p), numberWord (faultNumber (s.port p).fault)] := by
  rw [State.driveReset, driveReset_eq]
  cases hst : (s.port p).state <;> rw [hst] at h
  case retensioning | offline => simp at h
  all_goals rfl

theorem portJobs_eq : s.portJobs p = s.jobs.filter fun j => decide (j.drive = p) := rfl

theorem mem_portJobs {j : Job} : j ∈ s.portJobs p ↔ j ∈ s.jobs ∧ j.drive = p := by
  simp [State.portJobs]

theorem portJobs_apart (hs : s.JobsSound) : (s.portJobs p).Pairwise fun a b => a.id ≠ b.id := hs.oneId.filter _

theorem allLeft_job {u : State} {js : List Job} {e : Ending} {id : Nat} (h : ∀ k ∈ js, k.id ≠ id) : (u.allLeft js e).job id = u.job id := by
  unfold State.job State.allLeft
  rw [List.find?_filter]
  congr 1
  funext x
  by_cases hx : x.id = id
  · simpa [hx] using h
  · simp [hx]

theorem allLeft_job_none {u : State} {js : List Job} {e : Ending} {id : Nat} (h : u.job id = none) : (u.allLeft js e).job id = none := by
  unfold State.job State.allLeft at *
  rw [List.find?_eq_none] at h ⊢
  exact fun x hx => h x (List.mem_of_mem_filter hx)

theorem allLeft_oneId {u : State} (hu : u.OneId) (js : List Job) (e : Ending) : (u.allLeft js e).OneId := hu.filter _

/-- The jobs of the port leave the table with it: the others stay. -/
theorem filter_portJobs (hs : s.JobsSound) :
    s.jobs.filter (fun x => decide (∀ j ∈ s.portJobs p, j.id ≠ x.id)) = s.jobs.filter fun x => x.drive != p := by
  refine List.filter_congr fun x hx => ?_
  rw [Bool.eq_iff_iff, decide_eq_true_eq, bne_iff_ne]
  constructor
  · exact fun h hdrive => h x (mem_portJobs.2 ⟨hx, hdrive⟩) rfl
  · intro hdrive j hj hid
    obtain ⟨hmem, hj⟩ := mem_portJobs.1 hj
    exact hdrive (unique_id hs.apart hmem hx hid ▸ hj)

theorem cancelledBy_eq : s.cancelledBy p = s.jobs.countP fun x => decide (x.drive = p ∧ x.ending = none) := by
  refine List.countP_congr fun x _ => ?_
  simp

theorem cancelledBy_queued (h : ∀ j ∈ s.jobs, j.drive = p → j.ending = none) : s.cancelledBy p = (s.portJobs p).length := by
  rw [State.cancelledBy, State.portJobs, ← List.countP_eq_length_filter]
  refine List.countP_congr fun x hx => ?_
  simp only [Bool.and_eq_true, beq_iff_eq, Option.isNone_iff_eq_none]
  exact and_iff_left_of_imp (h x hx)

theorem activeJob_portJobs : s.activeJob p = (s.portJobs p).find? fun j => j.state != .queued := by
  rw [State.portJobs, List.find?_filter]
  unfold State.activeJob
  congr 1
  funext x
  rw [Bool.decide_and, Bool.decide_eq_true, Bool.decide_eq_true]

/-- The port's active job is the one of its jobs that is not queued. -/
theorem activeJob_split {before after : List Job} {j : Job} (hsplit : s.portJobs p = before ++ j :: after) (hj : j.state ≠ .queued)
    (hq : ∀ x ∈ before, x.state = .queued) : s.activeJob p = some j := by
  have hbefore : before.find? (fun j => j.state != .queued) = none :=
    List.find?_eq_none.2 fun x hx => by simp [hq x hx]
  rw [activeJob_portJobs, hsplit, List.find?_append, hbefore, Option.none_or, List.find?_cons_of_pos (by simpa using hj)]

end reset

/-- With one job that is not queued among them, the jobs before it leave, it is stopped, and those after it leave (R87). -/
theorem resetJobs_split {u : State} (hu : u.OneId) {before after : List Job} {j : Job}
    (hapart : (before ++ j :: after).Pairwise fun a b => a.id ≠ b.id) (hj : u.job j.id = some j)
    (hqueued : ∀ x ∈ before ++ after, u.job x.id = some x ∧ x.state = .queued ∧ x.id ∉ u.waits ∧ u.channelOf x.id = none) :
    u.resetJobs (before ++ j :: after)
      = ((u.allLeft before (.cancelled .driveReset)).stopJob j (.cancelled .driveReset)).allLeft after (.cancelled .driveReset)
    ∧ (u.allLeft before (.cancelled .driveReset)).job j.id = some j := by
  obtain ⟨hb, hja, hcross⟩ := List.pairwise_append.1 hapart
  obtain ⟨hjx, ha⟩ := List.pairwise_cons.1 hja
  have hleft : (u.allLeft before (.cancelled .driveReset)).job j.id = some j :=
    (allLeft_job fun k hk => hcross k hk j (List.mem_cons_self ..)).trans hj
  refine ⟨?_, hleft⟩
  rw [resetJobs_append, resetJobs_queued before hu hb fun x hx => hqueued x (List.mem_append_left _ hx), State.resetJobs]
  refine resetJobs_queued after (stopJob_oneId (allLeft_oneId hu _ _) hleft _) ha fun x hx => ?_
  obtain ⟨hx1, hx2, hx3, hx4⟩ := hqueued x (List.mem_append_right _ hx)
  obtain ⟨hkeep, hwaits, hchannel⟩ := stopJob_untouched (allLeft_oneId hu before (.cancelled .driveReset)) hleft (.cancelled .driveReset)
    (hjx x hx) hx3 hx4
  exact ⟨hkeep.trans ((allLeft_job fun k hk => hcross k hk x (List.mem_cons_of_mem _ hx)).trans hx1), hx2, hwaits, hchannel⟩

end Sys2Proof.Machine

namespace Sys2Proof

open Machine

/-- Settles O13: the jobs before the active one, the active one, and the jobs after it, each in its turn. -/
theorem driveResetEndsWork : Obligations.DriveResetEndsWork := by
  refine ⟨?notice, fun s j m hm => bandEntries_eq hm, fun s p => portJobs_eq, fun s tag port p hs hp =>
    ⟨fun h => ?retensioning, fun h => ?offline, fun hstate hjobs hqueued => ?queued, fun j before after e u hstate hjobs hsplit hj he hqueued hu => ?active⟩⟩
  case notice =>
    intro j e band outcome count houtcome hcount
    have houtcome' : outcome = e.outcomeNumber := by rw [houtcome]; cases e <;> rfl
    have hcount' : ∀ st, count st = countState band st := hcount
    obtain ⟨w1, w3, w4, w5, w6, w7, w8, hbody, h1, h3, h4, hrest⟩ := noticeBody_laidOut j e band
    rw [houtcome', idxOf_ending]
    simp only [hcount']
    exact ⟨w1, w3, w4, w5, w6, w7, w8, by rw [Job.notice, hbody], h1, h3, h4, hrest⟩
  case retensioning => exact refuses_of_exec (exec_driveReset hs hp) (driveReset_retensioning _ h)
  case offline => exact answers_of_exec (exec_driveReset hs hp) (driveReset_offline _ h)
  case queued =>
    have hactive : (s.taken .console).activeJob p = none :=
      Option.isNone_iff_eq_none.1 (activeJob_isNone.2 fun j hj hdrive => (hqueued j hj hdrive).1)
    have hreset := resetJobs_queued (u := { s.taken .console with ports := s.ports.set p (s.port p).resetDone }) (s.portJobs p) hjobs.oneId
      (portJobs_apart hjobs) fun x hx => by
        obtain ⟨hmem, hdrive⟩ := mem_portJobs.1 hx
        obtain ⟨hst, -, hwait, hchannel⟩ := hqueued x hmem hdrive
        exact ⟨job_of_mem hjobs hmem, hst, hwait, hchannel⟩
    have hnotices : (s.portJobs p).map (fun j => (j.decide (.cancelled .driveReset)).notice (j.ending.getD (.cancelled .driveReset)) (s.bandEntries j))
        = (s.portJobs p).map fun j => (j.decide (.cancelled .driveReset)).notice (.cancelled .driveReset) (s.bandEntries j) := by
      refine List.map_congr_left fun x hx => ?_
      obtain ⟨hmem, hdrive⟩ := mem_portJobs.1 hx
      obtain ⟨-, hending, -⟩ := hqueued x hmem hdrive
      rw [hending, Option.getD_none]
    have hwork : (s.taken .console).resetWork p
        = ({ s.taken .console with ports := s.ports.set p (s.port p).resetDone } : State).allLeft (s.portJobs p) (.cancelled .driveReset) := by
      rw [State.resetWork, hactive]
      exact hreset
    have hreserved : s.link.reserved + 1 - (s.portJobs p).length - 1 = s.link.reserved - (s.portJobs p).length := by omega
    rw [exec_driveReset hs hp, driveReset_works (s := s.taken .console) _ hstate, hwork,
      show (s.taken .console).cancelledBy p = (s.portJobs p).length from cancelledBy_queued fun j hj hdrive => (hqueued j hj hdrive).2.1,
      ← hnotices, ← filter_portJobs hjobs, ← hreserved]
    rfl
  case active =>
    subst he hu
    have hone : State.OneId { s.taken .console with ports := s.ports.set p (s.port p).resetDone } := hjobs.oneId
    have hmem : ∀ x ∈ before ++ j :: after, x ∈ s.jobs := fun x hx => (mem_portJobs.1 (hsplit ▸ hx)).1
    have hactive : (s.taken .console).activeJob p = some j :=
      activeJob_split hsplit hj fun x hx => (hqueued x (List.mem_append_left _ hx)).1
    obtain ⟨hreset, hleft⟩ := resetJobs_split (j := j) (before := before) (after := after) hone (hsplit ▸ portJobs_apart hjobs)
      (job_of_mem hjobs (hmem j (by simp))) fun x hx => by
        obtain ⟨hst, hwait, hchannel⟩ := hqueued x hx
        exact ⟨job_of_mem hjobs (hmem x (by simp only [List.mem_append, List.mem_cons] at hx ⊢; tauto)), hst, hwait, hchannel⟩
    have honeLeft := allLeft_oneId hone before (.cancelled .driveReset)
    have hstop := stopJob_job honeLeft hleft (.cancelled .driveReset)
    have honeStop := stopJob_oneId honeLeft hleft (.cancelled .driveReset)
    obtain ⟨-, hafter, -⟩ := List.pairwise_append.1 (hsplit ▸ portJobs_apart hjobs : (before ++ j :: after).Pairwise fun a b => a.id ≠ b.id)
    have hfollow := afterStop_spec (allLeft_oneId honeStop after (.cancelled .driveReset)) j (.cancelled .driveReset)
    have hwork : (s.taken .console).resetWork p
        = (((({ s.taken .console with ports := s.ports.set p (s.port p).resetDone } : State).allLeft before (.cancelled .driveReset)).stopJob j
            (.cancelled .driveReset)).allLeft after (.cancelled .driveReset)).afterStop (j.decide (.cancelled .driveReset)) := by
      rw [State.resetWork, hactive, show (s.taken .console).portJobs p = before ++ j :: after from hsplit]
      exact congrArg (State.afterReset · (some j)) hreset
    refine ⟨_, _, _, ?_, stopJob_spec honeLeft hleft _, rfl, fun hleave => hfollow.1 (allLeft_job_none (hstop.1 hleave)), fun hstays => hfollow.2 ?_⟩
    · rw [exec_driveReset hs hp, driveReset_works (s := s.taken .console) _ hstate, cancelledBy_eq, hwork]
      rfl
    · rw [allLeft_job fun k hk => ((List.pairwise_cons.1 hafter).1 k hk).symm]
      exact hstop.2 hstays

end Sys2Proof

/-! The limits of a geometry (R36): the tests against their ranges, in the order of the table. -/

namespace Sys2Proof.Machine

section firstFailing

variable {α : Type}

/-- A test of a list stands for the range of the same field. -/
def TestFor (t : α × Bool) (r : α × Prop) : Prop := t.1 = r.1 ∧ (t.2 = true ↔ r.2)

/-- No test fails where every range holds. -/
theorem firstFailing_none {tests : List (α × Bool)} {ranges : List (α × Prop)} (h : List.Forall₂ TestFor tests ranges) :
    (tests.find? fun t => !t.2).map Prod.fst = none ↔ ∀ r ∈ ranges, r.2 := by
  rw [Option.map_eq_none_iff, List.find?_eq_none]
  induction h with
  | nil => simp
  | cons htr _ ih => rw [List.forall_mem_cons, List.forall_mem_cons, ih, Bool.not_eq_true, Bool.not_eq_false', htr.2]

/-- The first failing test names the field of the first range that does not hold. -/
theorem firstFailing_some {tests : List (α × Bool)} {ranges : List (α × Prop)} (h : List.Forall₂ TestFor tests ranges) (f : α) :
    (tests.find? fun t => !t.2).map Prod.fst = some f ↔ ∃ i, ∃ bad, ranges[i]? = some (f, bad) ∧ ¬bad ∧ ∀ r ∈ ranges.take i, r.2 := by
  induction h with
  | nil => simp
  | @cons t r tests ranges htr _ ih =>
    obtain ⟨g, b⟩ := t
    obtain ⟨hfield, htest⟩ := htr
    cases b with
    | true =>
      rw [List.find?_cons_of_neg (by simp), ih]
      constructor
      · rintro ⟨i, bad, hi, hbad, hbefore⟩
        exact ⟨i + 1, bad, hi, hbad, List.forall_mem_cons.2 ⟨htest.1 rfl, hbefore⟩⟩
      · rintro ⟨i, bad, hi, hbad, hbefore⟩
        cases i with
        | zero =>
          cases hi
          exact absurd (htest.1 rfl) hbad
        | succ i => exact ⟨i, bad, hi, hbad, (List.forall_mem_cons.1 hbefore).2⟩
    | false =>
      have hr : ¬r.2 := fun hr => Bool.false_ne_true (htest.2 hr)
      rw [List.find?_cons_of_pos (by simp), Option.map_some, Option.some.injEq]
      constructor
      · rintro rfl
        exact ⟨0, r.2, by rw [List.getElem?_cons_zero, hfield], hr, by simp⟩
      · rintro ⟨i, bad, hi, -, hbefore⟩
        cases i with
        | zero =>
          cases hi
          exact hfield
        | succ i => exact absurd ((List.forall_mem_cons.1 hbefore).1) hr

end firstFailing

theorem floppyEncoding_iff : ∀ n : BitVec 2, (n == 0 || n == 1) = true ↔ encodingOf n.toNat ∈ [some Encoding.fm, some Encoding.mfm] := by decide

theorem tapeEncoding_iff : ∀ n : BitVec 2, (n == 2) = true ↔ encodingOf n.toNat ∈ [some Encoding.fixed] := by decide

theorem floppyRate_iff : ∀ n : BitVec 2, (n != 3) = true ↔ rateOf n.toNat ∈ [DataRate.k250, DataRate.k300, DataRate.k500] := by decide

theorem tapeRate_iff : ∀ n : BitVec 2, (n == 3) = true ↔ rateOf n.toNat ∈ [DataRate.fixed] := by decide

/-- The last sector id of a band fits its 8 bits. -/
theorem lastId_iff (g : GeometryWord) :
    g.firstId.toNat + g.sectors.toNat ≤ 256 ↔ g.sectors.toNat = 0 ∨ g.firstId.toNat + g.sectors.toNat - 1 ≤ 255 := by
  have := g.firstId.isLt
  omega

end Sys2Proof.Machine

namespace Sys2Proof

open Machine

/-- Settles O14: each test of a geometry stands for its range, so the first to fail names the first range broken. -/
theorem geometryLimits : Obligations.GeometryLimits := by
  refine ⟨⟨rfl, rfl, rfl⟩, ⟨rfl, rfl, rfl, rfl⟩, ⟨rfl, rfl, rfl, rfl⟩, fun kind g m hkind ranges hranges => ?_⟩
  have htests : List.Forall₂ TestFor (geometryTests kind g m) ranges := by
    subst hranges
    cases kind with
    | noDrive => exact absurd rfl hkind
    | floppy =>
      refine .cons ⟨rfl, ?_⟩ (.cons ⟨rfl, ?_⟩ (.cons ⟨rfl, ?_⟩ (.cons ⟨rfl, ?_⟩ (.cons ⟨rfl, ?_⟩ (.cons ⟨rfl, ?_⟩ (.cons ⟨rfl, ?_⟩ .nil))))))
      case refine_6 => exact floppyEncoding_iff m.encoding
      case refine_7 => exact floppyRate_iff m.rate
      case refine_4 => exact decide_eq_true_iff.trans (lastId_iff g)
      case refine_5 => simp
      all_goals exact (Bool.and_eq_true ..).to_iff.trans (and_congr decide_eq_true_iff decide_eq_true_iff)
    | cartridge =>
      refine .cons ⟨rfl, ?_⟩ (.cons ⟨rfl, ?_⟩ (.cons ⟨rfl, ?_⟩ (.cons ⟨rfl, ?_⟩ (.cons ⟨rfl, ?_⟩ (.cons ⟨rfl, ?_⟩ (.cons ⟨rfl, ?_⟩ .nil))))))
      case refine_6 => exact tapeEncoding_iff m.encoding
      case refine_7 => exact tapeRate_iff m.rate
      case refine_4 => exact decide_eq_true_iff.trans (lastId_iff g)
      case refine_5 => simp
      all_goals exact (Bool.and_eq_true ..).to_iff.trans (and_congr decide_eq_true_iff decide_eq_true_iff)
  exact ⟨firstFailing_none htests, firstFailing_some htests⟩

end Sys2Proof

/-! MOUNT and ALIAS (R37 to R39): their tests in their order, and the entry each defines. -/

namespace Sys2Proof.Machine

@[simp] theorem volume_taken (s : State) (q : Queue) (h : Nat) : (s.taken q).volume h = s.volume h := rfl

theorem setVolume_taken (s : State) (q : Queue) (h : Nat) (v : VolumeEntry) : (s.taken q).setVolume h v = (s.setVolume h v).taken q := by
  unfold State.setVolume
  split <;> rfl

theorem handle_ne_zero {handle : BitVec 6} (h : handle ≠ 0) : handle.toNat ≠ 0 := by
  simpa [BitVec.toNat_eq] using h

/-! ## MOUNT -/

section mount

variable {s : State} {q : Queue} {tag : BitVec 8} {c : Ctx} {handle : BitVec 6} {g : GeometryWord} {m : MediumField} {p : Fin 4}

theorem exec_mount (hs : s.Ready) (hp : m.drive.toNat = p.val) (hlevel : m.level.toNat ≤ 3) (hkind : m.kind = 1 ∨ m.kind = 2) :
    exec (.mount q tag handle g m) s = .next ((s.taken q).mount ⟨q, tag, 8, s.link.level q⟩ handle g m) := by
  have hp3 := p.isLt
  have hm : malformed (.mount handle g m) = false := by
    rw [malformed, decide_eq_false (by omega), decide_eq_false (by omega)]
    rcases hkind with h | h <;> rw [h] <;> rfl
  exact exec_performs hs rfl hm (.inl rfl)

theorem portOf_drive (hp : m.drive.toNat = p.val) : portOf (m.drive.setWidth 8) = p := by
  refine portOf_eq ?_
  have := m.drive.isLt
  rw [BitVec.toNat_setWidth, Nat.mod_eq_of_lt (by omega), hp]

theorem mount_nullHandle (h : handle = 0) : s.mount c handle g m = s.refuseHandle c .nullHandle handle.toNat [] := by
  subst h
  rfl

theorem mount_handleRange (h : 32 ≤ handle.toNat) : s.mount c handle g m = s.refuseHandle c .handleRange handle.toNat [] := by
  rw [State.mount]
  simp only [show handle.toNat ≠ 0 by omega, h, if_false, if_true]

theorem mount_handleInUse (h0 : handle ≠ 0) (h : handle.toNat < 32) (hu : s.volume handle.toNat ≠ .unused) :
    s.mount c handle g m = s.refuseHandle c .handleInUse handle.toNat [Config.entryKindWord (s.volume handle.toNat).kind] := by
  rw [State.mount]
  simp only [handle_ne_zero h0, Nat.not_le.2 h, if_false, bne_iff_ne.2 hu, if_true]

/-- A MOUNT of an unused handle goes on to its level, its geometry, and its port. -/
theorem mount_unused (h0 : handle ≠ 0) (h : handle.toNat < 32) (hu : s.volume handle.toNat = .unused) (hp : m.drive.toNat = p.val) :
    s.mount c handle g m =
      if m.level.toNat < c.level then s.refuseHandle c .level handle.toNat []
      else match badGeometryField (kindOfNumber m.kind.toNat) g m with
        | some f => s.refuseHandle c .badGeometry handle.toNat [Config.geometryFieldWord f]
        | none =>
          if (s.port p).state == .offline || (s.port p).kind != kindOfNumber m.kind.toNat then
            s.refuseHandle c .kindMismatch handle.toNat [numberWord (s.port p).kind.number, numberWord (s.port p).state.number]
          else
            (s.setVolume handle.toNat (.medium ⟨p, kindOfNumber m.kind.toNat, geometryOf g m, m.cls.toNat, m.level.toNat,
              s.mountReason p == .present⟩)).answer c .done (s.mountReason p).body := by
  rw [State.mount]
  simp only [handle_ne_zero h0, Nat.not_le.2 h, if_false, hu, bne_self_eq_false, portOf_drive hp, Bool.false_eq_true] <;> rfl

theorem mount_level (h0 : handle ≠ 0) (h : handle.toNat < 32) (hu : s.volume handle.toNat = .unused) (hp : m.drive.toNat = p.val)
    (hl : m.level.toNat < c.level) : s.mount c handle g m = s.refuseHandle c .level handle.toNat [] := by
  rw [mount_unused h0 h hu hp, if_pos hl]

theorem mount_badGeometry (h0 : handle ≠ 0) (h : handle.toNat < 32) (hu : s.volume handle.toNat = .unused) (hp : m.drive.toNat = p.val)
    (hl : c.level ≤ m.level.toNat) {f : GeometryField} (hf : badGeometryField (kindOfNumber m.kind.toNat) g m = some f) :
    s.mount c handle g m = s.refuseHandle c .badGeometry handle.toNat [Config.geometryFieldWord f] := by
  rw [mount_unused h0 h hu hp, if_neg (Nat.not_lt.2 hl), hf]

theorem mount_kindMismatch (h0 : handle ≠ 0) (h : handle.toNat < 32) (hu : s.volume handle.toNat = .unused) (hp : m.drive.toNat = p.val)
    (hl : c.level ≤ m.level.toNat) (hf : badGeometryField (kindOfNumber m.kind.toNat) g m = none)
    (hport : (s.port p).state = .offline ∨ (s.port p).kind ≠ kindOfNumber m.kind.toNat) :
    s.mount c handle g m
      = s.refuseHandle c .kindMismatch handle.toNat [numberWord (s.port p).kind.number, numberWord (s.port p).state.number] := by
  rw [mount_unused h0 h hu hp, if_neg (Nat.not_lt.2 hl), hf]
  exact if_pos (by simpa using hport)

theorem mount_accepted (h0 : handle ≠ 0) (h : handle.toNat < 32) (hu : s.volume handle.toNat = .unused) (hp : m.drive.toNat = p.val)
    (hl : c.level ≤ m.level.toNat) (hf : badGeometryField (kindOfNumber m.kind.toNat) g m = none) (hstate : (s.port p).state ≠ .offline)
    (hkind : (s.port p).kind = kindOfNumber m.kind.toNat) :
    s.mount c handle g m
      = (s.setVolume handle.toNat (.medium ⟨p, kindOfNumber m.kind.toNat, geometryOf g m, m.cls.toNat, m.level.toNat,
          s.mountReason p == .present⟩)).answer c .done (s.mountReason p).body := by
  rw [mount_unused h0 h hu hp, if_neg (Nat.not_lt.2 hl), hf]
  exact if_neg (by simp [hstate, hkind])

theorem mountReason_conflict {other : Nat} (h : s.presentHandle p = some other) : s.mountReason p = .conflict other := by
  rw [State.mountReason, h]

theorem mountReason_ready (h : ∀ x ∈ handles, s.presentOn p x = false) :
    s.mountReason p = if (s.port p).ready then .present else .notReady := by
  rw [State.mountReason, presentHandle_eq_none.2 h]

end mount

/-! ## ALIAS -/

section view

variable {s : State} {q : Queue} {tag : BitVec 8} {c : Ctx} {handle : BitVec 6} {f : ViewField}

theorem exec_defineView (hs : s.Ready) (hlimit : f.limit ≠ 0) (hmost : f.limit.toNat ≤ 1024) (hlevel : f.level.toNat ≤ 3) :
    exec (.defineView q tag handle f) s = .next ((s.taken q).defineView ⟨q, tag, 9, s.link.level q⟩ handle f) := by
  have hm : malformed (.defineView handle f) = false := by
    rw [malformed, beq_eq_false_iff_ne.2 hlimit, decide_eq_false (by omega), decide_eq_false (by omega)]
    rfl
  exact exec_performs hs rfl hm (.inl rfl)

theorem defineView_nullHandle (h : handle = 0) : s.defineView c handle f = s.refuseHandle c .nullHandle 0 [] := by
  subst h
  rfl

theorem defineView_handleRange (h : 32 ≤ handle.toNat) : s.defineView c handle f = s.refuseHandle c .handleRange handle.toNat [] := by
  rw [State.defineView]
  simp only [show handle.toNat ≠ 0 by omega, h, if_false, if_true]

theorem defineView_handleInUse (h0 : handle ≠ 0) (h : handle.toNat < 32) (hu : s.volume handle.toNat ≠ .unused) :
    s.defineView c handle f = s.refuseHandle c .handleInUse handle.toNat [] := by
  rw [State.defineView]
  simp only [handle_ne_zero h0, Nat.not_le.2 h, if_false, bne_iff_ne.2 hu, if_true]

/-- An ALIAS of an unused handle goes on to its level and its target. -/
theorem defineView_unused (h0 : handle ≠ 0) (h : handle.toNat < 32) (hu : s.volume handle.toNat = .unused) :
    s.defineView c handle f =
      if f.level.toNat < c.level then s.refuseHandle c .level handle.toNat []
      else match s.viewTarget c.level f with
        | .error e => s.refuseChain c e
        | .ok _ => (s.setVolume handle.toNat (.view ⟨f.target.toNat, f.offset.toNat, f.limit.toNat, f.level.toNat⟩)).answer c .done [] := by
  rw [State.defineView]
  simp only [handle_ne_zero h0, Nat.not_le.2 h, if_false, hu, bne_self_eq_false, Bool.false_eq_true] <;> rfl

theorem defineView_level (h0 : handle ≠ 0) (h : handle.toNat < 32) (hu : s.volume handle.toNat = .unused) (hl : f.level.toNat < c.level) :
    s.defineView c handle f = s.refuseHandle c .level handle.toNat [] := by
  rw [defineView_unused h0 h hu, if_pos hl]

theorem defineView_error (h0 : handle ≠ 0) (h : handle.toNat < 32) (hu : s.volume handle.toNat = .unused) (hl : c.level ≤ f.level.toNat)
    {e : ChainRefusal} (ht : s.viewTarget c.level f = .error e) : s.defineView c handle f = s.refuseHandle c e.code e.handle [] := by
  rw [defineView_unused h0 h hu, if_neg (Nat.not_lt.2 hl), ht]
  rfl

theorem defineView_ok (h0 : handle ≠ 0) (h : handle.toNat < 32) (hu : s.volume handle.toNat = .unused) (hl : c.level ≤ f.level.toNat)
    {m : Medium} (ht : s.viewTarget c.level f = .ok m) :
    s.defineView c handle f
      = (s.setVolume handle.toNat (.view ⟨f.target.toNat, f.offset.toNat, f.limit.toNat, f.level.toNat⟩)).answer c .done [] := by
  rw [defineView_unused h0 h hu, if_neg (Nat.not_lt.2 hl), ht]

variable {level : Nat}

theorem viewTarget_error {e : ChainRefusal} (h : s.chainEntry level f.target.toNat = .error e) : s.viewTarget level f = .error e := by
  rw [State.viewTarget, h]

theorem viewTarget_view {v : View} (h : s.chainEntry level f.target.toNat = .ok (.view v)) :
    s.viewTarget level f = .error ⟨.viewChain, f.target.toNat⟩ := by
  rw [State.viewTarget, h]

theorem viewTarget_beyond {m : Medium} (h : s.chainEntry level f.target.toNat = .ok (.medium m))
    (hfit : m.geometry.cylinders < f.offset.toNat + f.limit.toNat) : s.viewTarget level f = .error ⟨.bandRange, f.target.toNat⟩ := by
  rw [State.viewTarget, h]
  exact if_pos hfit

theorem viewTarget_within {m : Medium} (h : s.chainEntry level f.target.toNat = .ok (.medium m))
    (hfit : f.offset.toNat + f.limit.toNat ≤ m.geometry.cylinders) : s.viewTarget level f = .ok m := by
  rw [State.viewTarget, h]
  exact if_neg (Nat.not_lt.2 hfit)

end view

end Sys2Proof.Machine

namespace Sys2Proof

open Machine

/-- Settles O15: the entry by the reason a MOUNT finds for its present flag. -/
theorem mountDefinesMedium : Obligations.MountDefinesMedium := by
  intro s q tag handle g m p medium hs hp hlevel hkind h0 h32 hu hl hf hstate hport hmedium
  have hmount := mount_accepted (s := s.taken q) (c := ⟨q, tag, 8, s.link.level q⟩) h0 h32 hu hp hl hf hstate hport
  rw [show (s.taken q).mountReason p = s.mountReason p from rfl, setVolume_taken] at hmount
  have hexec := exec_mount (q := q) (tag := tag) (handle := handle) (g := g) hs hp hlevel hkind
  subst hmedium
  refine ⟨fun other hother => ?_, fun hnone => ⟨fun hready => ?_, fun hready => ?_⟩⟩
  · rw [mountReason_conflict hother] at hmount
    exact answers_of_exec hexec hmount
  · rw [mountReason_ready hnone, hready] at hmount
    exact answers_of_exec hexec hmount
  · rw [mountReason_ready hnone, hready] at hmount
    exact answers_of_exec hexec hmount

/-- Settles O16: the tests of MOUNT in their order. -/
theorem mountRefusals : Obligations.MountRefusals := by
  intro s q tag handle g m p hs hp hlevel hkind
  have hexec := exec_mount (q := q) (tag := tag) (handle := handle) (g := g) hs hp hlevel hkind
  refine ⟨fun h => refusesNaming_of_exec hexec (mount_nullHandle h), fun h => refusesNaming_of_exec hexec (mount_handleRange h),
    fun h0 h => ⟨fun hu => refusesNaming_of_exec hexec (mount_handleInUse h0 h hu), fun hu =>
      ⟨fun hl => refusesNaming_of_exec hexec (mount_level h0 h hu hp hl), fun hl =>
        ⟨fun f hf => refusesNaming_of_exec hexec (mount_badGeometry (s := s.taken q) (c := ⟨q, tag, 8, s.link.level q⟩) h0 h hu hp hl hf),
          fun hf hport => refusesNaming_of_exec hexec (mount_kindMismatch h0 h hu hp hl hf hport)⟩⟩⟩⟩

/-- Settles O17: the tests of ALIAS in their order, the last of them those of its target. -/
theorem aliasDefinesView : Obligations.AliasDefinesView := by
  intro s q tag handle f hs hlimit hmost hlevel
  have hexec := exec_defineView (q := q) (tag := tag) (handle := handle) hs hlimit hmost hlevel
  have htarget : (s.taken q).viewTarget (s.link.level q) f = s.viewTarget (s.link.level q) f := rfl
  have herror : ∀ e, s.viewTarget (s.link.level q) f = .error e → handle ≠ 0 → handle.toNat < 32 → s.volume handle.toNat = .unused →
      s.link.level q ≤ f.level.toNat → s.RefusesNaming (.defineView q tag handle f) q tag 9 e.code e.handle [] :=
    fun e he h0 h hu hl => refusesNaming_of_exec hexec (defineView_error (s := s.taken q) (c := ⟨q, tag, 9, s.link.level q⟩) h0 h hu hl (htarget.trans he))
  refine ⟨fun h => refusesNaming_of_exec hexec (defineView_nullHandle h), fun h => refusesNaming_of_exec hexec (defineView_handleRange h),
    fun h0 h => ⟨fun hu => refusesNaming_of_exec hexec (defineView_handleInUse h0 h hu), fun hu =>
      ⟨fun hl => refusesNaming_of_exec hexec (defineView_level h0 h hu hl), fun hl =>
        ⟨fun e he => ?_, fun v hv => ?_, fun m hm => ⟨fun hfit => ?_, fun hfit => ?_⟩⟩⟩⟩⟩
  · exact herror e (viewTarget_error he) h0 h hu hl
  · exact herror ⟨.viewChain, f.target.toNat⟩ (viewTarget_view hv) h0 h hu hl
  · exact herror ⟨.bandRange, f.target.toNat⟩ (viewTarget_beyond hm hfit) h0 h hu hl
  · have hok := defineView_ok (s := s.taken q) (c := ⟨q, tag, 9, s.link.level q⟩) h0 h hu hl (htarget.trans (viewTarget_within hm hfit))
    rw [setVolume_taken] at hok
    exact answers_of_exec hexec hok

end Sys2Proof

/-! CONFIRM, UNMOUNT and DESCRIBE of an entry the check chain accepts (R40 to R43). -/

namespace Sys2Proof.Machine

@[simp] theorem chainEntry_taken (s : State) (q : Queue) (level h : Nat) : (s.taken q).chainEntry level h = s.chainEntry level h := rfl

theorem medium_of_chainEntry {s : State} {level h : Nat} {m : Medium} (hc : s.chainEntry level h = .ok (.medium m)) : s.medium h = some m := by
  obtain ⟨-, hvolume, -⟩ := chainEntry_ok hc
  exact medium_eq_some.2 hvolume

section commands

variable {s : State} {c : Ctx} {handle : BitVec 6} {m : Medium} {v : View}

/-! ## CONFIRM -/

theorem confirm_view (h : s.chainEntry c.level handle.toNat = .ok (.view v)) :
    s.confirm c handle = s.refuseHandle c .notMedium handle.toNat [] := by
  rw [State.confirm]
  simp only [h]

theorem confirm_conflict (h : s.chainEntry c.level handle.toNat = .ok (.medium m)) {other : Nat} (hp : s.presentHandle m.drive = some other)
    (hne : other ≠ handle.toNat) : s.confirm c handle = s.refuseHandle c .presentConflict handle.toNat [numberWord other] := by
  rw [State.confirm]
  simp only [h, hp, bne_iff_ne.2 hne, if_true]

theorem confirm_present (h : s.chainEntry c.level handle.toNat = .ok (.medium m)) (hp : s.presentHandle m.drive = some handle.toNat) :
    s.confirm c handle = s.answer c .done [] := by
  rw [State.confirm]
  simp only [h, hp, bne_self_eq_false, Bool.false_eq_true, if_false]

theorem confirm_notReady (h : s.chainEntry c.level handle.toNat = .ok (.medium m)) (hp : s.presentHandle m.drive = none)
    (hready : (s.port m.drive).ready = false) : s.confirm c handle = s.refuseHandle c .notReady handle.toNat [] := by
  rw [State.confirm]
  simp only [h, hp, hready, Bool.not_false, if_true]

theorem confirm_ready (h : s.chainEntry c.level handle.toNat = .ok (.medium m)) (hp : s.presentHandle m.drive = none)
    (hready : (s.port m.drive).ready = true) :
    s.confirm c handle = (s.setVolume handle.toNat (.medium { m with present := true })).answer c .done [] := by
  rw [State.confirm]
  simp only [h, hp, hready, Bool.not_true, Bool.false_eq_true, if_false, State.setPresent, medium_of_chainEntry h]

/-! ## UNMOUNT -/

theorem unmount_view_used (h : s.chainEntry c.level handle.toNat = .ok (.view v)) (hj : ∃ j ∈ s.jobs, j.viaHandle = some handle.toNat) :
    s.unmount c handle = s.refuseHandle c .inUse handle.toNat [numberWord (s.jobsVia handle.toNat)] := by
  have hcount : 0 < s.jobsVia handle.toNat := List.countP_pos_iff.2 (by simpa using hj)
  rw [State.unmount]
  simp only [h, hcount, if_true]

theorem unmount_view_free (h : s.chainEntry c.level handle.toNat = .ok (.view v)) (hj : ∀ j ∈ s.jobs, j.viaHandle ≠ some handle.toNat) :
    s.unmount c handle = (s.setVolume handle.toNat .unused).answer c .done [] := by
  have hcount : s.jobsVia handle.toNat = 0 := List.countP_eq_zero.2 (by simpa using hj)
  rw [State.unmount]
  simp only [h, hcount, Nat.lt_irrefl, if_false]

theorem unmount_medium_used (h : s.chainEntry c.level handle.toNat = .ok (.medium m))
    (hu : 0 < s.entriesOf handle.toNat ∨ 0 < s.jobsOf handle.toNat ∨ 0 < s.viewsOf handle.toNat) :
    s.unmount c handle = s.refuseHandle c .inUse handle.toNat
      [numberWord (s.entriesOf handle.toNat), numberWord (s.jobsOf handle.toNat), numberWord (s.viewsOf handle.toNat)] := by
  rw [State.unmount]
  simp only [h]
  exact if_pos (by simpa [or_assoc] using hu)

theorem unmount_medium_free (h : s.chainEntry c.level handle.toNat = .ok (.medium m)) (he : s.entriesOf handle.toNat = 0)
    (hj : s.jobsOf handle.toNat = 0) (hv : s.viewsOf handle.toNat = 0) :
    s.unmount c handle = (s.setVolume handle.toNat .unused).answer c .done [] := by
  rw [State.unmount]
  simp only [h]
  exact if_neg (by simp [he, hj, hv])

/-! ## DESCRIBE -/

theorem describe_ok {entry : VolumeEntry} (h : s.chainEntry c.level handle.toNat = .ok entry) :
    s.describe c handle = s.answer c .done (s.describeBody handle.toNat entry) := by
  rw [State.describe]
  simp only [h]

end commands

end Sys2Proof.Machine

namespace Sys2Proof

open Machine

/-- Settles O18: each command by the entry its handle names. -/
theorem confirmUnmountDescribe : Obligations.ConfirmUnmountDescribe := by
  refine ⟨fun s h => rfl, fun s q tag handle hs => ?_⟩
  have hconfirm : exec (.confirm q tag handle) s = .next ((s.taken q).confirm ⟨q, tag, 10, s.link.level q⟩ handle) :=
    exec_performs (c := .confirm handle) hs rfl rfl (.inl rfl)
  have hunmount : exec (.unmount q tag handle) s = .next ((s.taken q).unmount ⟨q, tag, 11, s.link.level q⟩ handle) :=
    exec_performs (c := .unmount handle) hs rfl rfl (.inl rfl)
  have hdescribe : exec (.describe q tag handle) s = .next ((s.taken q).describe ⟨q, tag, 12, s.link.level q⟩ handle) :=
    exec_performs (c := .describe handle) hs rfl rfl (.inl rfl)
  refine ⟨fun v hv => ⟨?view, fun hj => ?viewUsed, fun hj => ?viewFree⟩, fun m hm => ⟨fun other ho hne => ?conflict, fun hp => ?present,
    fun hp => ⟨fun hr => ?notReady, fun hr => ?ready⟩, fun entries jobs views he hj hv => ⟨fun hu => ?used, fun he0 hj0 hv0 => ?free⟩⟩,
    fun m hm => ?describeMedium, fun v hv => ?describeView⟩
  case view => exact refusesNaming_of_exec hconfirm (confirm_view (s := s.taken q) (c := ⟨q, tag, 10, s.link.level q⟩) hv)
  case viewUsed => exact refusesNaming_of_exec hunmount (unmount_view_used (s := s.taken q) (c := ⟨q, tag, 11, s.link.level q⟩) hv hj)
  case viewFree =>
    have h := unmount_view_free (s := s.taken q) (c := ⟨q, tag, 11, s.link.level q⟩) hv hj
    rw [setVolume_taken] at h
    exact answers_of_exec hunmount h
  case conflict => exact refusesNaming_of_exec hconfirm (confirm_conflict (s := s.taken q) (c := ⟨q, tag, 10, s.link.level q⟩) hm ho hne)
  case present => exact answers_of_exec hconfirm (confirm_present (s := s.taken q) (c := ⟨q, tag, 10, s.link.level q⟩) hm hp)
  case notReady => exact refusesNaming_of_exec hconfirm (confirm_notReady (s := s.taken q) (c := ⟨q, tag, 10, s.link.level q⟩) hm hp hr)
  case ready =>
    have h := confirm_ready (s := s.taken q) (c := ⟨q, tag, 10, s.link.level q⟩) hm hp hr
    rw [setVolume_taken] at h
    exact answers_of_exec hconfirm h
  case used =>
    subst he hj hv
    have h := unmount_medium_used (s := s.taken q) (c := ⟨q, tag, 11, s.link.level q⟩) hm hu
    exact refusesNaming_of_exec hunmount h
  case free =>
    subst he hj hv
    have h := unmount_medium_free (s := s.taken q) (c := ⟨q, tag, 11, s.link.level q⟩) hm he0 hj0 hv0
    rw [setVolume_taken] at h
    exact answers_of_exec hunmount h
  case describeMedium =>
    have h := describe_ok (s := s.taken q) (c := ⟨q, tag, 12, s.link.level q⟩) hm
    exact answers_of_exec hdescribe h
  case describeView =>
    have h := describe_ok (s := s.taken q) (c := ⟨q, tag, 12, s.link.level q⟩) hv
    exact answers_of_exec hdescribe h

end Sys2Proof

/-! The check chain step by step (R31 to R34), and the commands it refuses. -/

namespace Sys2Proof.Machine

section chain

variable {s : State} {level handle cylinder head sector : Nat}

/-! ## Steps 1 to 4 -/

theorem chainEntry_null : s.chainEntry level 0 = .error ⟨.nullHandle, 0⟩ := rfl

theorem chainEntry_beyond (h : 32 ≤ handle) : s.chainEntry level handle = .error ⟨.handleRange, handle⟩ := by
  rw [State.chainEntry, if_neg (by omega), if_pos h]

theorem chainEntry_unused (h0 : 0 < handle) (h : handle < 32) (hv : s.volume handle = .unused) :
    s.chainEntry level handle = .error ⟨.notDefined, handle⟩ := by
  rw [State.chainEntry, if_neg (by omega), if_neg (by omega), hv]

/-- A defined entry is judged by its level. -/
theorem chainEntry_defined (h0 : 0 < handle) (h : handle < 32) (hv : s.volume handle ≠ .unused) :
    s.chainEntry level handle = if (s.volume handle).level < level then .error ⟨.level, handle⟩ else .ok (s.volume handle) := by
  rw [State.chainEntry, if_neg (by omega), if_neg (by omega)]
  cases hvol : s.volume handle with
  | unused => exact absurd hvol hv
  | medium | view => rfl

/-! ## Step 5 -/

section view

variable {v : View} {at' : Option Nat}

theorem chainView_null (h : v.target = 0) : s.chainView level handle v at' = .error ⟨.nullHandle, v.target⟩ := by
  rw [State.chainView, if_pos h]

theorem chainView_beyond (h : 32 ≤ v.target) : s.chainView level handle v at' = .error ⟨.handleRange, v.target⟩ := by
  rw [State.chainView, if_neg (by omega), if_pos h]

theorem chainView_chain (h0 : 0 < v.target) (h : v.target < 32) (hm : s.medium v.target = none) :
    s.chainView level handle v at' = .error ⟨.viewChain, v.target⟩ := by
  rw [State.chainView, if_neg (by omega), if_neg (by omega)]
  cases hvol : s.volume v.target with
  | medium m => rw [medium_eq_some.2 hvol] at hm; cases hm
  | unused | view => rfl

/-- An ALIAS of a MEDIUM entry is judged by that entry's level, and then by its own limit. -/
theorem chainView_medium (h0 : 0 < v.target) (h : v.target < 32) {m : Medium} (hm : s.medium v.target = some m) :
    s.chainView level handle v at'
      = if m.level < level then .error ⟨.level, v.target⟩
        else if at'.any (fun c => decide (v.limit ≤ c)) then .error ⟨.bandRange, handle⟩ else .ok (v.target, m) := by
  rw [State.chainView, if_neg (by omega), if_neg (by omega), medium_eq_some.1 hm]

end view

theorem chainResolve_error (named : Bool) {e : ChainRefusal} (h : s.chainEntry level handle = .error e) :
    s.chainResolve level handle cylinder head sector named = .error e := by
  rw [State.chainResolve, h]

theorem chainResolve_medium (named : Bool) {m : Medium} (h : s.chainEntry level handle = .ok (.medium m)) :
    s.chainResolve level handle cylinder head sector named = .ok ⟨handle, m, cylinder, head, sector, none⟩ := by
  rw [State.chainResolve, h]

theorem chainResolve_view {named : Bool} {v : View} (h : s.chainEntry level handle = .ok (.view v)) :
    s.chainResolve level handle cylinder head sector named
      = match s.chainView level handle v (if named then some cylinder else none) with
        | .error e => .error e
        | .ok (target, m) => .ok ⟨target, m, cylinder + v.offset, head, sector, some ⟨handle, v.offset, v.limit⟩⟩ := by
  rw [State.chainResolve, h] <;> rfl

theorem chainResolve_viewError {named : Bool} {v : View} {e : ChainRefusal} (h : s.chainEntry level handle = .ok (.view v))
    (hv : s.chainView level handle v (if named then some cylinder else none) = .error e) :
    s.chainResolve level handle cylinder head sector named = .error e := by
  rw [chainResolve_view h, hv]

theorem chainResolve_viewOk {named : Bool} {v : View} {m : Medium} {target : Nat} (h : s.chainEntry level handle = .ok (.view v))
    (hv : s.chainView level handle v (if named then some cylinder else none) = .ok (target, m)) :
    s.chainResolve level handle cylinder head sector named
      = .ok ⟨target, m, cylinder + v.offset, head, sector, some ⟨handle, v.offset, v.limit⟩⟩ := by
  rw [chainResolve_view h, hv]

end chain

/-! ## Steps 6 and 7 -/

section checks

variable {r : Resolved}

theorem checkBand_outside (h : r.medium.geometry.cylinders ≤ r.cylinder ∨ r.medium.geometry.heads ≤ r.head) :
    r.checkBand = .error ⟨.bandRange, r.handle⟩ :=
  if_pos (by simpa using h)

theorem checkBand_inside (hc : r.cylinder < r.medium.geometry.cylinders) (hh : r.head < r.medium.geometry.heads) : r.checkBand = .ok r :=
  if_neg (by simp [hc, hh])

theorem checkKey_error {e : ChainRefusal} (h : r.checkBand = .error e) : r.checkKey = .error e := by
  rw [Resolved.checkKey, h]

theorem checkKey_band (h : r.checkBand = .ok r) :
    r.checkKey = if r.medium.geometry.hasId r.sector then .ok r else .error ⟨.bandRange, r.handle⟩ := by
  rw [Resolved.checkKey, h]

theorem hasId_iff (g : Geometry) (sector : Nat) : g.hasId sector = true ↔ g.firstId ≤ sector ∧ sector < g.firstId + g.sectors := by
  simp [Geometry.hasId]

theorem checkKey_outside (h : r.checkBand = .ok r)
    (hid : r.sector < r.medium.geometry.firstId ∨ r.medium.geometry.firstId + r.medium.geometry.sectors ≤ r.sector) :
    r.checkKey = .error ⟨.bandRange, r.handle⟩ := by
  rw [checkKey_band h, if_neg]
  rw [hasId_iff]
  omega

theorem checkKey_inside (h : r.checkBand = .ok r) (hlow : r.medium.geometry.firstId ≤ r.sector)
    (hhigh : r.sector < r.medium.geometry.firstId + r.medium.geometry.sectors) : r.checkKey = .ok r := by
  rw [checkKey_band h, if_pos ((hasId_iff ..).2 ⟨hlow, hhigh⟩)]

theorem checkPresent_absent (h : r.medium.present = false) : r.checkPresent = .error ⟨.notPresent, r.handle⟩ := by
  rw [Resolved.checkPresent, h]
  rfl

theorem checkPresent_present (h : r.medium.present = true) : r.checkPresent = .ok r := by
  rw [Resolved.checkPresent, h]
  rfl

end checks

section compositions

variable {s : State} {level : Nat} {b : BandField} {k : KeyField} {e : ChainRefusal} {r r' : Resolved}

theorem chainBand_error (h : s.chainResolve level b.handle.toNat b.cylinder.toNat b.head.toNat 0 true = .error e) :
    s.chainBand level b = .error e := by
  rw [State.chainBand, h]

theorem chainBand_ok (h : s.chainResolve level b.handle.toNat b.cylinder.toNat b.head.toNat 0 true = .ok r) :
    s.chainBand level b = r.checkBand := by
  rw [State.chainBand, h]

theorem chainReadBand_error (h : s.chainBand level b = .error e) : s.chainReadBand level b = .error e := by
  rw [State.chainReadBand, h]

theorem chainReadBand_ok (h : s.chainBand level b = .ok r) : s.chainReadBand level b = r.checkPresent := by
  rw [State.chainReadBand, h]

theorem chainKey_error (h : s.chainResolve level k.handle.toNat k.cylinder.toNat k.head.toNat k.sector.toNat true = .error e) :
    s.chainKey level k = .error e := by
  rw [State.chainKey, h]

theorem chainKey_ok (h : s.chainResolve level k.handle.toNat k.cylinder.toNat k.head.toNat k.sector.toNat true = .ok r) :
    s.chainKey level k = r.checkKey := by
  rw [State.chainKey, h]

end compositions

@[simp] theorem chainKey_taken (s : State) (q : Queue) (level : Nat) (k : KeyField) : (s.taken q).chainKey level k = s.chainKey level k := rfl
@[simp] theorem chainBand_taken (s : State) (q : Queue) (level : Nat) (b : BandField) : (s.taken q).chainBand level b = s.chainBand level b := rfl
@[simp] theorem chainReadBand_taken (s : State) (q : Queue) (level : Nat) (b : BandField) :
    (s.taken q).chainReadBand level b = s.chainReadBand level b := rfl
@[simp] theorem chainVolume_taken (s : State) (q : Queue) (level : Nat) (h : BitVec 6) :
    (s.taken q).chainVolume level h = s.chainVolume level h := rfl

/-- A command whose owner refuses it by the chain is refused with that code, naming that handle. -/
theorem exec_refuseChain {s : State} {q : Queue} {tag : BitVec 8} {c : HostCommand} {e : ChainRefusal} (hs : s.Ready) (hu : isUnknown c = false)
    (hm : malformed c = false) (hc : consoleOnly c = false)
    (hperform : (s.taken q).perform ⟨q, tag, c.code, s.link.level q⟩ c = (s.taken q).refuseChain ⟨q, tag, c.code, s.link.level q⟩ e) :
    exec (instrOf q tag c) s = .next (s.answered q (refusalNaming q tag c.code e.code e.handle [])) :=
  refusesNaming_of_exec (exec_performs hs hu hm (.inl hc)) hperform

end Sys2Proof.Machine

namespace Sys2Proof

open Machine

/-- Settles O19: each step of the chain, and how the chains of R34 are composed of them. -/
theorem checkChainSteps : Obligations.CheckChainSteps := by
  intro s level handle cylinder head sector
  refine ⟨fun h => h ▸ chainEntry_null, chainEntry_beyond, fun h0 h => ⟨chainEntry_unused h0 h, fun hv hl => ?level, fun hv hl => ?defined⟩,
    fun v named hentry => ⟨fun h => chainResolve_viewError hentry (chainView_null h), fun h => chainResolve_viewError hentry (chainView_beyond h),
      fun h0 h hm => chainResolve_viewError hentry (chainView_chain h0 h hm),
      fun m h0 h hm => ⟨fun hl => ?viewLevel, fun hl hnamed hlimit => ?viewLimit, fun hl hwithin => ?viewOk⟩⟩,
    fun m named => chainResolve_medium named,
    fun r => ⟨fun h => ⟨checkBand_outside h, checkKey_error (checkBand_outside h)⟩, fun hc hh =>
      ⟨checkBand_inside hc hh, checkKey_outside (checkBand_inside hc hh), checkKey_inside (checkBand_inside hc hh)⟩,
      checkPresent_absent, checkPresent_present⟩,
    fun e named => chainResolve_error named,
    fun b => ⟨fun e h => ⟨chainBand_error h, chainReadBand_error (chainBand_error h)⟩, fun r h =>
      ⟨chainBand_ok h, fun e he => chainReadBand_error ((chainBand_ok h).trans he), fun r' hr => chainReadBand_ok ((chainBand_ok h).trans hr)⟩⟩,
    fun k => ⟨fun e => chainKey_error, fun r => chainKey_ok⟩, fun _ => rfl⟩
  case level => rw [chainEntry_defined h0 h hv, if_pos hl]
  case defined => rw [chainEntry_defined h0 h hv, if_neg (by omega)]
  case viewLevel => exact chainResolve_viewError hentry (by rw [chainView_medium h0 h hm, if_pos hl])
  case viewLimit =>
    refine chainResolve_viewError hentry ?_
    rw [chainView_medium h0 h hm, if_neg (by omega), if_pos (by simpa [hnamed] using hlimit)]
  case viewOk =>
    refine chainResolve_viewOk hentry ?_
    rw [chainView_medium h0 h hm, if_neg (by omega), if_neg]
    rcases hwithin with hnamed | hwithin
    · simp [hnamed]
    · cases named <;> simp [hwithin]

/-- Settles O20: every command that names a handle opens with its chain. -/
theorem checkChainRefuses : Obligations.CheckChainRefuses := by
  intro s q tag c e hs hm hc
  rcases hc with ⟨b, rfl, he⟩ | ⟨b, rfl | ⟨scope, rfl⟩, he⟩
    | ⟨k, ⟨w, rfl⟩ | ⟨w, states, rfl⟩ | ⟨n, rfl⟩ | ⟨n, rfl⟩ | ⟨check, rfl⟩ | rfl | rfl, he⟩ | ⟨h, scope, rfl, he⟩ | ⟨h, rfl | rfl | rfl, he⟩
  all_goals
    refine exec_refuseChain hs rfl hm rfl ?_
    rw [State.perform]
  · simp only [State.readBand, chainReadBand_taken, he]
  · simp only [State.probeProfile, chainBand_taken, he]
  · simp only [State.retireBand, chainBand_taken, he]
  · simp only [State.lookup, chainKey_taken, he]
  · simp only [State.find, chainKey_taken, he]
  · simp only [State.fetch, chainKey_taken, he]
  · simp only [State.choose, chainKey_taken, he]
  · simp only [State.amend, chainKey_taken, he]
  · simp only [State.retire, chainKey_taken, he]
  · simp only [State.synthesize, chainKey_taken, he]
  · simp only [State.retireVolume, chainVolume_taken, he]
  · simp only [State.confirm, chainEntry_taken, he]
  · simp only [State.unmount, chainEntry_taken, he]
  · simp only [State.describe, chainEntry_taken, he]

end Sys2Proof

/-! The profile commands (R46, R47, R52 to R57). -/

namespace Sys2Proof.Machine

open Laws

section profiles

variable {s : State} {c : Ctx} {slot : BitVec 8} {i : Fin 10} {m : MatchField} {a : AttributeField}

theorem slotOf_eq (h : slot.toNat = i.val) : slotOf slot = some i := by
  have := i.isLt
  rw [slotOf, dif_pos (by omega)]
  exact congrArg some (Fin.ext h)

theorem slotOf_none (h : 10 ≤ slot.toNat) : slotOf slot = none := by
  rw [slotOf, dif_neg (by omega)]

theorem flagWord_eq (b : Bool) : flagWord b = if b then 1 else 0 := rfl

theorem getElem_set_self (v : Vector (Option Profile) 10) (i : Fin 10) (x : Option Profile) : (v.set i x)[i] = x := by
  simp

theorem getElem_set_other (v : Vector (Option Profile) 10) {i k : Fin 10} (x : Option Profile) (h : k ≠ i) : (v.set i x)[k] = v[k] := by
  simp [Fin.val_ne_of_ne h.symm]

/-! ## What lies outside its range (R46, R52) -/

theorem badAttribute_passLimit (h : a.passLimit.toNat = 0) : badAttribute a = some .passLimit := by
  rw [badAttribute, if_pos]
  exact beq_iff_eq.2 (BitVec.eq_of_toNat_eq h)

theorem badAttribute_of_passLimit (h : 1 ≤ a.passLimit.toNat) :
    badAttribute a = if a.quorum.toNat = 0 ∨ 4 < a.quorum.toNat then some .quorum else none := by
  have hpass : (a.passLimit == 0) = false := beq_eq_false_iff_ne.2 fun h0 => by simp [h0] at h
  have hquorum : (a.quorum == 0 || decide (4 < a.quorum.toNat)) = true ↔ a.quorum.toNat = 0 ∨ 4 < a.quorum.toNat := by
    rw [Bool.or_eq_true, decide_eq_true_eq, beq_iff_eq, BitVec.toNat_eq]
    rfl
  rw [badAttribute, hpass, if_neg Bool.false_ne_true]
  exact ite_congr (propext hquorum) (fun _ => rfl) fun _ => rfl

theorem badAttribute_none (hp : 1 ≤ a.passLimit.toNat) (hq : 1 ≤ a.quorum.toNat ∧ a.quorum.toNat ≤ 4) : badAttribute a = none := by
  rw [badAttribute_of_passLimit hp, if_neg (by omega)]

theorem badProfileField_head (h : 47 < m.head.toNat) : badProfileField m a = some .head := if_pos h

theorem badProfileField_of_head (h : m.head.toNat ≤ 47) : badProfileField m a = badAttribute a := if_neg (by omega)

/-! ## SET PROFILE and CLEAR PROFILE -/

theorem setProfile_noSlot (h : slotOf slot = none) : s.setProfile c slot m a = s.refuse c .badParameter [] := by
  rw [State.setProfile, h]

theorem setProfile_bad (h : slotOf slot = some i) {f : ProfileField} (hf : badProfileField m a = some f) :
    s.setProfile c slot m a = s.refuse c .badProfile [Config.profileFieldWord f] := by
  rw [State.setProfile, h]
  simp only [hf]

theorem setProfile_good (h : slotOf slot = some i) (hf : badProfileField m a = none) :
    s.setProfile c slot m a
      = (s.setProfiles { s.profiles with slots := s.profiles.slots.set i (some ⟨matchOf m, attributesOf a⟩) }).answer c .done
          [flagWord s.profiles.slots[i].isSome] := by
  rw [State.setProfile, h]
  simp only [hf]

theorem clearProfile_slot (h : slotOf slot = some i) :
    s.clearProfile c slot
      = (s.setProfiles { s.profiles with slots := s.profiles.slots.set i none }).answer c .done [flagWord s.profiles.slots[i].isSome] := by
  rw [State.clearProfile, h]
  cases hs : s.profiles.slots[i].isSome <;> simp only [hs] <;> rfl

theorem toList_eq_map (v : Vector (Option Profile) 10) : v.toList = (List.finRange 10).map fun i => v[i] := by
  refine List.ext_getElem (by simp) fun n h1 h2 => ?_
  simp

theorem validCount_eq (t : ProfileTable) : t.validCount = (List.finRange 10).countP fun i => t.slots[i].isSome := by
  rw [ProfileTable.validCount, toList_eq_map, List.countP_map]
  rfl

end profiles

/-! ## Layouts -/

theorem startFirst_toNat (r : StartRule) : (r == .first).toNat = if r = .first then 1 else 0 := by cases r <;> rfl

theorem attributesWord_laidOut (a : Attributes) : laidOut a.word
    [(31, 28, a.passLimit), (27, 25, a.quorum), (24, 22, a.tolerance), (21, 21, a.escalate.toNat), (20, 20, if a.startRule = .first then 1 else 0),
     (19, 19, a.reseat.toNat), (18, 18, a.park.toNat), (17, 17, a.autoSynthesize.toNat), (16, 0, 0)] := by
  have hescalate := toNat_flag_lt a.escalate
  have hfirst := toNat_flag_lt (a.startRule == .first)
  have hreseat := toNat_flag_lt a.reseat
  have hpark := toNat_flag_lt a.park
  have hsynth := toNat_flag_lt a.autoSynthesize
  rw [← startFirst_toNat]
  unfold Attributes.word
  simp only [laidOut_cons, toNat_joined, BitVec.toNat_ofNat, toNat_flag] at hescalate hfirst hreseat hpark hsynth ⊢
  refine ⟨?_, ?_, ?_, ?_, ?_, ?_, ?_, ?_, ?_, laidOut_nil _⟩
  all_goals omega

theorem matchWord_laidOut (m : MatchPart) :
    laidOut (bits 3 m.cls ++ bits 3 m.classMask ++ bits 10 m.cylinderMask ++ BitVec.ofBool m.anyHead ++ 0#15)
      [(31, 29, m.cls), (28, 26, m.classMask), (25, 16, m.cylinderMask), (15, 15, m.anyHead.toNat), (14, 0, 0)] := by
  have hany := toNat_flag_lt m.anyHead
  simp only [laidOut_cons, toNat_joined, BitVec.toNat_ofNat, toNat_flag] at hany ⊢
  refine ⟨?_, ?_, ?_, ?_, ?_, laidOut_nil _⟩
  all_goals omega

theorem setProfiles_eq (s : State) (t : ProfileTable) : s.setProfiles t = { s with profiles := t } := rfl

end Sys2Proof.Machine

namespace Sys2Proof

open Machine

/-- Settles O21: the slot a selector names, and what the two commands put there. -/
theorem slotCommands : Obligations.SlotCommands := by
  refine ⟨fun s tag slot m a hs => ?set, fun s tag slot hs => ?clear⟩
  case set =>
    have hexec : ∀ hm : malformed (.setProfile slot m a) = false, exec (.setProfile .console tag slot m a) s
        = .next ((s.taken .console).setProfile ⟨.console, tag, 16, s.link.level .console⟩ slot m a) :=
      fun hm => exec_performs (c := .setProfile slot m a) hs rfl hm (.inr rfl)
    have hform : slot.toNat ≤ 11 → malformed (.setProfile slot m a) = false := fun h => decide_eq_false (by omega)
    have hslot : slot.toNat < 10 → ∃ i : Fin 10, slotOf slot = some i := fun h => ⟨⟨_, h⟩, slotOf_eq rfl⟩
    refine ⟨fun h => ?_, fun h => ⟨fun hh => ?_, fun hh => ⟨fun hp => ?_, fun hp hq => ?_⟩⟩, fun i hi hh hp hq => ?_⟩
    · have hn : 10 ≤ slot.toNat ∧ slot.toNat ≤ 11 := by rcases h with rfl | rfl <;> decide
      exact refuses_of_exec (hexec (hform hn.2)) (setProfile_noSlot (slotOf_none hn.1))
    · obtain ⟨i, hi⟩ := hslot h
      exact refuses_of_exec (hexec (hform (by omega))) (setProfile_bad hi (badProfileField_head hh))
    · obtain ⟨i, hi⟩ := hslot h
      exact refuses_of_exec (hexec (hform (by omega))) (setProfile_bad hi ((badProfileField_of_head hh).trans (badAttribute_passLimit hp)))
    · obtain ⟨i, hi⟩ := hslot h
      exact refuses_of_exec (hexec (hform (by omega)))
        (setProfile_bad hi ((badProfileField_of_head hh).trans ((badAttribute_of_passLimit hp).trans (if_pos hq))))
    · have hlt := i.isLt
      exact ⟨{ s.profiles with slots := s.profiles.slots.set i (some ⟨matchOf m, attributesOf a⟩) }, answers_of_exec (hexec (hform (by omega)))
          (setProfile_good (slotOf_eq hi) ((badProfileField_of_head hh).trans (badAttribute_none hp.1 hq))),
        getElem_set_self .., fun k hk => getElem_set_other _ _ hk, rfl⟩
  case clear =>
    have hexec : ∀ hm : malformed (.clearProfile slot) = false, exec (.clearProfile .console tag slot) s
        = .next ((s.taken .console).clearProfile ⟨.console, tag, 17, s.link.level .console⟩ slot) :=
      fun hm => exec_performs (c := .clearProfile slot) hs rfl hm (.inr rfl)
    have hform : slot.toNat ≤ 11 → malformed (.clearProfile slot) = false := fun h => decide_eq_false (by omega)
    refine ⟨fun h => ?_, fun i hi => ?_, fun h => ?_⟩
    · subst h
      exact refuses_of_exec (hexec rfl) rfl
    · have hlt := i.isLt
      exact ⟨{ s.profiles with slots := s.profiles.slots.set i none }, answers_of_exec (hexec (hform (by omega))) (clearProfile_slot (slotOf_eq hi)),
        getElem_set_self ..,
        fun k hk => getElem_set_other _ _ hk, rfl⟩
    · subst h
      rw [← validCount_eq]
      exact ⟨{ s.profiles with slots := .replicate 10 none }, answers_of_exec (hexec rfl) rfl, fun k => by simp, rfl⟩

/-- Settles O22: the tests of SET DEFAULTS, and the default profile it leaves. -/
theorem setDefaultsWritesDefault : Obligations.SetDefaultsWritesDefault := by
  intro s tag a hs
  have hexec : exec (.setDefaults .console tag a) s = .next ((s.taken .console).setDefaults ⟨.console, tag, 18, s.link.level .console⟩ a) :=
    exec_performs (c := .setDefaults a) hs rfl rfl (.inr rfl)
  have hbad : ∀ f, badAttribute a = some f → s.Refuses (.setDefaults .console tag a) .console tag 18 .badProfile [Config.profileFieldWord f] := by
    intro f hf
    refine refuses_of_exec (level := s.link.level .console) hexec ?_
    rw [State.setDefaults, hf]
  refine ⟨fun hp => hbad _ (badAttribute_passLimit hp), fun hp hq => hbad _ ((badAttribute_of_passLimit hp).trans (if_pos hq)),
    fun hp hq => answers_of_exec (level := s.link.level .console) hexec ?_⟩
  rw [State.setDefaults, badAttribute_none hp.1 hq]
  rfl

/-- Settles O23: the layouts of the words, and the two answers. -/
theorem readAndProbeProfile : Obligations.ReadAndProbeProfile := by
  refine ⟨attributesWord_laidOut, fun m => ⟨_, rfl, matchWord_laidOut m⟩, fun s q tag hs => ?_⟩
  have hread : ∀ slot, malformed (.readProfile slot) = false → exec (.readProfile q tag slot) s
      = .next ((s.taken q).readProfile ⟨q, tag, 19, s.link.level q⟩ slot) :=
    fun slot hm => exec_performs (c := .readProfile slot) hs rfl hm (.inl rfl)
  have hslot : ∀ (i : Fin 10) (slot : BitVec 8), slot.toNat = i.val → exec (.readProfile q tag slot) s
      = .next (s.answered q (answerOf q tag 19 .done (slotBody i.val s.profiles.slots[i]))) := by
    intro i slot hi
    have hlt := i.isLt
    refine answers_of_exec (level := s.link.level q) (hread slot (decide_eq_false (by omega))) ?_
    rw [State.readProfile, slotOf_eq hi]
    rfl
  refine ⟨fun i slot hi => ⟨fun p hp => ?_, fun hp => ?_⟩, answers_of_exec (hread 10 rfl) rfl, refuses_of_exec (hread 11 rfl) rfl,
    fun b r slot a hb hsearch => ?_⟩
  · rw [hslot i slot hi, hp]
    rfl
  · rw [hslot i slot hi, hp]
    rfl
  · have hprobe : exec (.probeProfile q tag b) s = .next ((s.taken q).probeProfile ⟨q, tag, 20, s.link.level q⟩ b) :=
      exec_performs (c := .probeProfile b) hs rfl rfl (.inl rfl)
    refine answers_of_exec (level := s.link.level q) hprobe ?_
    rw [State.probeProfile, chainBand_taken, hb]
    simp only [State.searchProfile, State.taken_profiles, hsearch]

end Sys2Proof

/-! READ BAND's refusals (R58), the table at a job's opening (R59), and the ids of jobs (R61). -/

namespace Sys2Proof.Machine

/-! ## What refuses a READ BAND -/

section refusals

variable {s : State} {c : Ctx} {b : BandField} {r : Resolved}

theorem readBand_full (h : s.chainReadBand c.level b = .ok r) (hj : 8 ≤ s.jobs.length) : s.readBand c b = s.refuse c .jobsFull [] := by
  rw [State.readBand]
  simp only [h]
  exact if_pos hj

theorem readBand_active (h : s.chainReadBand c.level b = .ok r) (hj : s.jobs.length < 8) {j : Job}
    (hband : s.bandJob r.handle r.cylinder r.head = some j) : s.readBand c b = s.refuse c .bandActive [numberWord j.id] := by
  rw [State.readBand]
  simp only [h, hband]
  exact if_neg (Nat.not_le.2 hj)

theorem readBand_tableFull (h : s.chainReadBand c.level b = .ok r) (hj : s.jobs.length < 8) (hband : s.bandJob r.handle r.cylinder r.head = none)
    (hfree : s.freeEntries < s.missingEntries r.bandKeys) :
    s.readBand c b = s.refuse c .tableFull [numberWord (s.missingEntries r.bandKeys), numberWord s.freeEntries] := by
  rw [State.readBand]
  simp only [h, hband, hfree, if_true]
  exact if_neg (Nat.not_le.2 hj)

theorem readBand_opens (h : s.chainReadBand c.level b = .ok r) (hj : s.jobs.length < 8) (hband : s.bandJob r.handle r.cylinder r.head = none)
    (hfree : s.missingEntries r.bandKeys ≤ s.freeEntries) :
    s.readBand c b = ((s.openJob c r (s.searchProfile r)).answer c .accepted
      (acceptedBody s.nextJobId (s.searchProfile r).1 r (s.missingEntries r.bandKeys))).offer r.medium.drive := by
  rw [State.readBand]
  simp only [h, hband, Nat.not_lt.2 hfree, if_false]
  exact if_neg (Nat.not_le.2 hj)

end refusals

/-! ## Entries after an update and after an insertion -/

section entries

variable {s : State} {k x : Key}

theorem entry_updateEntry {f : Entry → Entry} (hf : ∀ e, (f e).key = e.key) :
    (s.updateEntry k f).entry x = (s.entry x).map fun e => if e.key == k then f e else e := by
  have hkey : ((fun e : Entry => e.key == x) ∘ fun e => if e.key == k then f e else e) = fun e => e.key == x := by
    funext e
    by_cases h : e.key = k
    · simp [h, hf]
    · simp [h]
  show (s.entries.map _).find? _ = _
  rw [List.find?_map, hkey]
  rfl

theorem entry_updateEntry_self {f : Entry → Entry} (hf : ∀ e, (f e).key = e.key) {e : Entry} (he : s.entry k = some e) :
    (s.updateEntry k f).entry k = some (f e) := by
  rw [entry_updateEntry hf, he, Option.map_some, if_pos (beq_iff_eq.2 (entry_key he))]

theorem entry_updateEntry_other {f : Entry → Entry} (hf : ∀ e, (f e).key = e.key) (hne : x ≠ k) :
    (s.updateEntry k f).entry x = s.entry x := by
  rw [entry_updateEntry hf]
  cases he : s.entry x with
  | none => rfl
  | some e => rw [Option.map_some, if_neg (by simpa [entry_key he] using hne)]

theorem find_insertEntry_self {p : Entry → Bool} {e : Entry} (he : p e = true) : ∀ {l : List Entry}, l.find? p = none →
    (insertEntry e l).find? p = some e
  | [], _ => List.find?_cons_of_pos he
  | y :: rest, h => by
    rw [List.find?_eq_none] at h
    have hy : ¬p y = true := h y (List.mem_cons_self ..)
    unfold insertEntry
    split
    · exact List.find?_cons_of_pos he
    · rw [List.find?_cons_of_neg hy]
      exact find_insertEntry_self he (List.find?_eq_none.2 fun z hz => h z (List.mem_cons_of_mem _ hz))

theorem find_insertEntry_other {p : Entry → Bool} {e : Entry} (he : ¬p e = true) : ∀ l : List Entry, (insertEntry e l).find? p = l.find? p
  | [] => List.find?_cons_of_neg he
  | y :: rest => by
    unfold insertEntry
    split
    · exact List.find?_cons_of_neg he
    · rw [List.find?_cons, List.find?_cons, find_insertEntry_other he rest]

variable {size quorum : Nat}

theorem open_key (e : Entry) (quorum : Nat) : (e.open_ quorum).key = e.key := (sameList_open e quorum).1

theorem openEntry_other (hne : x ≠ k) : (s.openEntry k size quorum).entry x = s.entry x := by
  unfold State.openEntry
  split
  · exact entry_updateEntry_other (fun e => open_key e quorum) hne
  · exact find_insertEntry_other (by simpa [Entry.fresh] using hne.symm) s.entries

theorem openEntry_fresh (hk : s.entry k = none) : (s.openEntry k size quorum).entry k = some (Entry.fresh k size quorum) := by
  unfold State.openEntry
  rw [hk]
  exact find_insertEntry_self (by simp [Entry.fresh]) hk

theorem openEntry_stands {e : Entry} (hk : s.entry k = some e) : (s.openEntry k size quorum).entry k = some (e.open_ quorum) := by
  unfold State.openEntry
  rw [hk]
  exact entry_updateEntry_self (fun e => open_key e quorum) hk

theorem openEntries_cons (s : State) (k : Key) (rest : List Key) (size quorum : Nat) :
    s.openEntries (k :: rest) size quorum = (s.openEntry k size quorum).openEntries rest size quorum := rfl

theorem openEntries_other : ∀ {keys : List Key} {s : State}, x ∉ keys → (s.openEntries keys size quorum).entry x = s.entry x
  | [], _, _ => rfl
  | k :: rest, s, h => by
    obtain ⟨hne, hrest⟩ := List.ne_and_not_mem_of_not_mem_cons h
    rw [openEntries_cons, openEntries_other hrest, openEntry_other hne]

/-- Among keys that differ, one key's entry is opened once. -/
theorem openEntries_mem : ∀ (keys : List Key) (s : State), keys.Nodup → k ∈ keys →
    (s.openEntries keys size quorum).entry k = (s.openEntry k size quorum).entry k
  | [], _, _, hk => absurd hk List.not_mem_nil
  | y :: rest, s, hnodup, hk => by
    obtain ⟨hy, hrest⟩ := List.nodup_cons.1 hnodup
    rw [openEntries_cons]
    by_cases hky : k = y
    · subst hky
      exact openEntries_other hy
    · have hopen := openEntry_other (s := s) (size := size) (quorum := quorum) hky
      rw [openEntries_mem rest _ hrest ((List.mem_cons.1 hk).resolve_left hky)]
      cases he : s.entry k with
      | none => rw [openEntry_fresh (hopen.trans he), openEntry_fresh he]
      | some e => rw [openEntry_stands (hopen.trans he), openEntry_stands he]

end entries

/-! ## What opening makes of an entry -/

section opening

variable {e : Entry} {quorum : Nat}

theorem open_missing (h : e.state = .missing) :
    e.open_ quorum = { e with quorum := quorum, state := .expected, best := none, settledQuorum := none, amendSource := none } := by
  rw [Entry.open_]
  simp only [h]
  rfl

theorem open_exhausted (h : e.state = .exhausted) :
    e.open_ quorum = { e with quorum := quorum, state := .weak, best := none, settledQuorum := none, amendSource := none } := by
  rw [Entry.open_]
  simp only [h]
  rfl

theorem open_tentative {k : Nat} {c : Candidate} (h : e.state = .tentative) (hbest : e.best = some k) (hc : e.candidates[k]? = some c) :
    e.open_ quorum = if quorum ≤ c.agree then { e with quorum := quorum, state := .settled, settledQuorum := some quorum, amendSource := none }
      else { e with quorum := quorum } := by
  rw [Entry.open_]
  simp only [h, hbest, Entry.agreeOf, hc, Entry.settle]

theorem open_stands (h : e.state ∉ [.missing, .exhausted, .tentative]) : e.open_ quorum = { e with quorum := quorum } := by
  rw [Entry.open_]
  cases hst : e.state with
  | missing | exhausted | tentative => simp [hst] at h
  | _ => rfl

end opening

/-! ## The id that follows -/

/-- The search for an id goes up by one until it meets one that is free, or has made all its tries. -/
theorem nextId_steps (inUse : List Nat) : ∀ n id, ∃ d, 1 ≤ d ∧ d ≤ n + 1 ∧ nextId inUse (n + 1) id = (id + d) % 256
    ∧ ∀ d', 1 ≤ d' → d' < d → (id + d') % 256 ∈ inUse
  | 0, id => ⟨1, le_rfl, le_rfl, by rw [nextId_succ]; split <;> rfl, fun _ _ _ => by omega⟩
  | n + 1, id => by
    rw [nextId_succ]
    split
    · rename_i hused
      obtain ⟨d, hd1, hdn, hd, hbefore⟩ := nextId_steps inUse n ((id + 1) % 256)
      refine ⟨d + 1, by omega, by omega, by rw [hd]; omega, fun d' h1 hlt => ?_⟩
      rcases Nat.eq_or_lt_of_le h1 with rfl | hlater
      · exact List.contains_iff_mem.1 hused
      · have := hbefore (d' - 1) (by omega) (by omega)
        rwa [show ((id + 1) % 256 + (d' - 1)) % 256 = (id + d') % 256 by omega] at this
    · exact ⟨1, le_rfl, by omega, rfl, fun _ _ _ => by omega⟩

end Sys2Proof.Machine

namespace Sys2Proof

open Machine

/-- Settles O26: the tests of READ BAND after the chain, in their order. -/
theorem readBandRefusals : Obligations.ReadBandRefusals := by
  intro s q tag b r keys missing hkeys hmissing hs hchain
  subst hkeys hmissing
  have hexec : exec (.readBand q tag b) s = .next ((s.taken q).readBand ⟨q, tag, 24, s.link.level q⟩ b) :=
    exec_performs (c := .readBand b) hs rfl rfl (.inl rfl)
  have hchain' : (s.taken q).chainReadBand (s.link.level q) b = .ok r := hchain
  refine ⟨fun hj => ?_, fun hj => ⟨fun j hband => ?_, fun hband hfree => ?_⟩⟩
  · exact refuses_of_exec hexec (readBand_full (c := ⟨q, tag, 24, s.link.level q⟩) hchain' hj)
  · exact refuses_of_exec hexec (readBand_active (c := ⟨q, tag, 24, s.link.level q⟩) hchain' hj hband)
  · exact refuses_of_exec hexec (readBand_tableFull (c := ⟨q, tag, 24, s.link.level q⟩) hchain' hj hband hfree)

/-- Settles O27: each key is opened once, and the others stand; the id is the first free one above. -/
theorem jobOpenEntries : Obligations.JobOpenEntries := by
  refine ⟨fun s keys size quorum k hnodup => ⟨openEntries_other, fun hk hnone => ?fresh, fun e hk he => ?stands⟩,
    fun e quorum => ⟨open_missing, open_exhausted, fun k c h hbest hc => ⟨fun hq => ?settles, fun hq => ?waits⟩, open_stands⟩,
    fun inUse id _ hlen => ?next⟩
  case fresh => exact (openEntries_mem keys s hnodup hk).trans (openEntry_fresh hnone)
  case stands => exact (openEntries_mem keys s hnodup hk).trans (openEntry_stands he)
  case settles => rw [open_tentative h hbest hc, if_pos hq]
  case waits => rw [open_tentative h hbest hc, if_neg (Nat.not_le.2 hq)]
  case next =>
    obtain ⟨d, hd1, hd9, hd, hbefore⟩ := nextId_steps inUse 8 id
    exact ⟨d, hd1, hd9, hd, hd ▸ nextId_notMem id hlen (by decide), hbefore⟩

end Sys2Proof

/-! READ BAND opens a job and offers its port (R58 to R60, R64). -/

namespace Sys2Proof.Machine

/-! ## The state a job's opening leaves -/

section opening

variable {s : State}

theorem openEntry_taken (q : Queue) (k : Key) (size quorum : Nat) :
    (s.taken q).openEntry k size quorum = (s.openEntry k size quorum).taken q := by
  unfold State.openEntry
  rw [show (s.taken q).entry k = s.entry k from rfl]
  cases s.entry k <;> rfl

theorem openEntries_taken (q : Queue) (size quorum : Nat) : ∀ (keys : List Key) (s : State),
    (s.taken q).openEntries keys size quorum = (s.openEntries keys size quorum).taken q
  | [], _ => rfl
  | k :: rest, s => by rw [openEntries_cons, openEntries_cons, openEntry_taken, openEntries_taken q size quorum rest]

/-- The state in which the job of a READ BAND is open and its answer posted, its port not yet offered (R58 to R60). -/
def State.bandOpened (s : State) (q : Queue) (tag : BitVec 8) (r : Resolved) : State :=
  let found := s.searchProfile r
  let jobs := s.jobs ++ [Job.opened s.nextJobId r (s.link.level q) found q tag]
  ({ s with
      entries := (s.openEntries r.bandKeys r.medium.geometry.sizeCode found.2.quorum).entries
      jobs := jobs
      nextJobId := nextId (jobs.map Job.id) 9 s.nextJobId
      link := { s.link with reserved := s.link.reserved + 1 } } : State).answered q
    (answerOf q tag 24 .accepted (acceptedBody s.nextJobId found.1 r (s.missingEntries r.bandKeys)))

theorem openJob_answer (q : Queue) (tag : BitVec 8) (r : Resolved) :
    (((s.taken q).openJob ⟨q, tag, 24, s.link.level q⟩ r (s.searchProfile r)).answer ⟨q, tag, 24, s.link.level q⟩ .accepted
      (acceptedBody s.nextJobId (s.searchProfile r).1 r (s.missingEntries r.bandKeys))) = s.bandOpened q tag r := by
  obtain ⟨v, hv⟩ := openEntries_eq r.medium.geometry.sizeCode (s.searchProfile r).2.quorum r.bandKeys s
  unfold State.openJob State.bandOpened
  dsimp only
  rw [openEntries_taken, hv]
  rfl

/-- A READ BAND that passes its tests opens its job, answers, and offers the port. -/
theorem exec_readBand {q : Queue} {tag : BitVec 8} {b : BandField} {r : Resolved} (hs : s.Ready)
    (h : s.chainReadBand (s.link.level q) b = .ok r) (hj : s.jobs.length < 8) (hband : s.bandJob r.handle r.cylinder r.head = none)
    (hfree : s.missingEntries r.bandKeys ≤ s.freeEntries) :
    exec (.readBand q tag b) s = .next ((s.bandOpened q tag r).offer r.medium.drive) := by
  have hexec : exec (.readBand q tag b) s = .next ((s.taken q).readBand ⟨q, tag, 24, s.link.level q⟩ b) :=
    exec_performs (c := .readBand b) hs rfl rfl (.inl rfl)
  rw [hexec, readBand_opens (s := s.taken q) (c := ⟨q, tag, 24, s.link.level q⟩) h hj hband hfree, ← openJob_answer]
  rfl

end opening

/-- An ALIAS leads to a MEDIUM entry. -/
theorem chainView_ok {s : State} {level handle target : Nat} {v : View} {cylinder : Option Nat} {m : Medium}
    (h : s.chainView level handle v cylinder = .ok (target, m)) : s.medium target = some m := by
  unfold State.chainView at h
  split at h
  · cases h
  split at h
  · cases h
  split at h
  · rename_i m' hvol
    split at h
    · cases h
    split at h
    · cases h
    · cases h
      exact medium_eq_some.2 hvol
  · cases h
  · cases h

theorem chainResolve_ok {s : State} {level handle cylinder head sector : Nat} {named : Bool} {r : Resolved}
    (h : s.chainResolve level handle cylinder head sector named = .ok r) : s.medium r.handle = some r.medium := by
  unfold State.chainResolve at h
  split at h
  · cases h
  · rename_i m hentry
    cases h
    exact medium_of_chainEntry hentry
  · split at h
    · cases h
    · rename_i target m hview
      cases h
      exact chainView_ok hview
  · cases h

theorem checkBand_ok {r r' : Resolved} (h : r.checkBand = .ok r') : r = r' := by
  unfold Resolved.checkBand at h
  split at h <;> cases h
  rfl

theorem checkPresent_ok {r r' : Resolved} (h : r.checkPresent = .ok r') : r = r' ∧ r.medium.present = true := by
  unfold Resolved.checkPresent at h
  split at h
  · rename_i hp
    cases h
    exact ⟨rfl, hp⟩
  · cases h

/-- What a passed chain of READ BAND says of its medium: it is present, and stands under the resolved handle. -/
theorem chainReadBand_present {s : State} {level : Nat} {b : BandField} {r : Resolved} (h : s.chainReadBand level b = .ok r) :
    r.medium.present = true ∧ s.medium r.handle = some r.medium := by
  unfold State.chainReadBand at h
  split at h
  · cases h
  · rename_i r' hband
    obtain ⟨rfl, hpresent⟩ := checkPresent_ok h
    unfold State.chainBand at hband
    split at hband
    · cases hband
    · rename_i r'' hr
      obtain rfl := checkBand_ok hband
      exact ⟨hpresent, chainResolve_ok hr⟩

/-! ## The offer of a port whose only job is new -/

section offer

variable {u : State} {p : Fin 4}

theorem offerLoop_of_not_offerable (n : Nat) (h : u.offerable p = false) : u.offerLoop p n = u := by
  cases n with
  | zero => rfl
  | succ n => rw [State.offerLoop, if_neg (by rw [h]; exact Bool.false_ne_true)]

/-- A port that cannot be offered stays as it is (R64). -/
theorem offer_of_not_offerable (h : (u.port p).state ∉ [.idle, .onBand] ∨ ∃ j ∈ u.jobs, j.drive = p ∧ j.state ≠ .queued) : u.offer p = u := by
  refine offerLoop_of_not_offerable _ ?_
  unfold State.offerable
  rw [Bool.and_eq_false_iff]
  rcases h with h | ⟨j, hj, hdrive, hne⟩
  · right
    rw [← Bool.not_eq_true, idle_or_onBand_iff]
    exact h
  · left
    rw [← Bool.not_eq_true, activeJob_isNone]
    exact fun hq => hne (hq j hj hdrive)

theorem updateJob_last {l : List Job} {j : Job} (h : ∀ x ∈ l, x.id ≠ j.id) (f : Job → Job) (hu : u.jobs = l ++ [j]) :
    u.updateJob j.id f = { u with jobs := l ++ [f j] } := by
  unfold State.updateJob State.setJobs
  rw [hu, List.map_append, List.map_singleton, if_pos (beq_self_eq_true _)]
  have hl : l.map (fun x => if x.id == j.id then f x else x) = l :=
    (List.map_congr_left fun x hx => if_neg (by simpa using h x hx)).trans (List.map_id _)
  rw [hl]

/-- On an IDLE port, with its motor off and no retension due, a present job that is the port's only one positions at once (R64, R66). -/
theorem offer_last {l : List Job} {j : Job} {m : Medium} (hu : u.jobs = l ++ [j]) (hl : ∀ x ∈ l, x.drive ≠ p ∧ x.id ≠ j.id) (hj : j.drive = p)
    (hq : j.state = .queued) (hm : u.medium j.handle = some m) (hpresent : m.present = true) (hidle : (u.port p).state = .idle)
    (hmotor : (u.port p).motor = false) (hdue : (u.port p).retensionDue = false) :
    u.offer p = { u with
      jobs := l ++ [{ j with state := .positioning }]
      ports := u.ports.set p ((u.port p).positionRequest j.band m.format) } := by
  have hoffer : u.offerable p = true := by
    unfold State.offerable
    rw [Bool.and_eq_true, activeJob_isNone, hidle]
    refine ⟨fun x hx hdrive => ?_, rfl⟩
    rw [hu, List.mem_append, List.mem_singleton] at hx
    rcases hx with hx | rfl
    · exact absurd hdrive (hl x hx).1
    · exact hq
  have hqueued : u.queuedJob p = some j := by
    unfold State.queuedJob
    rw [hu, List.find?_append, List.find?_eq_none.2 fun x hx => by simp [(hl x hx).1], Option.none_or]
    exact List.find?_cons_of_pos (by simp [hj, hq])
  have hlen : u.jobs.length = l.length + 1 := by rw [hu, List.length_append, List.length_singleton]
  have hstart : u.startJob j = u.positionJob j := by
    unfold State.startJob
    dsimp only
    rw [hj, hdue, hidle]
    rfl
  have harrived : ((u.port p).positionRequest j.band m.format).arrived = false := by
    rw [← Bool.not_eq_true, positionRequest_arrived, hmotor]
    simp
  unfold State.offer
  rw [hlen, State.offerLoop, if_pos hoffer, hqueued]
  dsimp only
  rw [if_pos (by rw [State.presentFor, hm]; exact hpresent), hstart, State.positionJob, hm]
  dsimp only
  rw [updateJob_last (fun x hx => (hl x hx).2) _ hu, hj]
  simp only [port_updatePort_self]
  rw [if_neg]
  · rfl
  · exact Bool.eq_false_iff.1 harrived

end offer

end Sys2Proof.Machine

namespace Sys2Proof

open Machine

/-- Settles O25: the job opens, its answer posts, and then its port is offered. -/
theorem readBandOpensJob : Obligations.ReadBandOpensJob := by
  intro s t q tag b r slot a job keys missing hkeys hmissing hs hchain hlen hband hfree hsearch hjob ht
  have hfound : s.searchProfile r = (slot, a) := hsearch
  have hopened : job = Job.opened s.nextJobId r (s.link.level q) (s.searchProfile r) q tag := by
    rw [hjob, hfound]
    rfl
  have ht' : s.bandOpened q tag r = t := by
    unfold State.bandOpened
    dsimp only
    rw [ht, ← hopened, hfound, hmissing, hkeys]
    rfl
  have hfree' : s.missingEntries r.bandKeys ≤ s.freeEntries := by
    have hcount : missing = s.missingEntries r.bandKeys := by rw [hmissing, hkeys]; rfl
    exact hcount ▸ hfree
  have hexec := exec_readBand (tag := tag) hs hchain hlen hband hfree'
  have hjobs : t.jobs = s.jobs ++ [job] := by rw [ht]; rfl
  obtain ⟨hpresent, hmedium⟩ := chainReadBand_present hchain
  rw [ht'] at hexec
  refine ⟨fun hsound => ⟨_, hexec, offer_spec ?_ _⟩, fun hno => ?_, fun hidle hmotor hdue hothers => ?_⟩
  · rw [State.OneId, hjobs, List.pairwise_append]
    refine ⟨hsound.oneId, List.pairwise_singleton .., fun x hx y hy => ?_⟩
    rw [List.mem_singleton.1 hy, hjob]
    exact hsound.fresh x hx
  · rw [hexec, offer_of_not_offerable]
    refine hno.imp (by rw [ht]; exact id) ?_
    rintro ⟨x, hx, hdrive⟩
    exact ⟨x, by rw [hjobs]; exact List.mem_append_left _ hx, hdrive⟩
  · rw [hexec, offer_last (l := s.jobs) (j := job) (m := r.medium) (by rw [ht]; rfl) (by rw [hjob]; exact hothers) (by rw [hjob]) (by rw [hjob]) (by rw [hjob, ht]; exact hmedium) hpresent
      (by rw [ht]; exact hidle) (by rw [ht]; exact hmotor) (by rw [ht]; exact hdue)]
    rw [hjob, ht]
    rfl

end Sys2Proof

/-! HOLD and CANCEL (R82 to R85, R97): what a leaving job's grants and offers keep, and the tests of the two commands. -/

namespace Sys2Proof.Machine

/-! ## What grants and offers leave alone -/

/-- The link port, the volumes and the entries stay. -/
structure State.SameBooks (s t : State) : Prop where
  link : t.link = s.link
  volumes : t.volumes = s.volumes
  entries : t.entries = s.entries

namespace State.SameBooks

variable {s t u : State}

theorem refl (s : State) : s.SameBooks s := ⟨rfl, rfl, rfl⟩

theorem trans (h : s.SameBooks t) (k : t.SameBooks u) : s.SameBooks u :=
  ⟨k.link.trans h.link, k.volumes.trans h.volumes, k.entries.trans h.entries⟩

theorem bandEntries (h : s.SameBooks t) (j : Job) : t.bandEntries j = s.bandEntries j := by
  unfold State.bandEntries State.idsOf State.medium State.volume
  rw [h.entries, h.volumes]

end State.SameBooks

section grants

variable (s : State)

theorem updateJob_books (id : Nat) (f : Job → Job) : s.SameBooks (s.updateJob id f) := ⟨rfl, rfl, rfl⟩

theorem updatePort_books (p : Fin 4) (f : Port → Port) : s.SameBooks (s.updatePort p f) := ⟨rfl, rfl, rfl⟩

theorem updateChannel_books (c : ChannelName) (f : Channel → Channel) : s.SameBooks (s.updateChannel c f) := by
  cases c <;> exact ⟨rfl, rfl, rfl⟩

theorem enterRetensionWait_books (j : Job) : s.SameBooks (s.enterRetensionWait j) := by
  unfold State.enterRetensionWait
  dsimp only
  split
  · exact (updateJob_books ..).trans (updatePort_books ..)
  · exact updateJob_books ..

theorem requestStream_books (c : ChannelName) (j : Job) : s.SameBooks (s.requestStream c j).1 := by
  unfold State.requestStream
  split
  · exact .refl s
  · dsimp only
    split
    · exact updateJob_books ..
    · split
      · exact ((updateJob_books ..).trans (updateJob_books ..)).trans (enterRetensionWait_books _ _)
      · dsimp only
        exact (((updateJob_books ..).trans (updateJob_books ..)).trans (updatePort_books ..)).trans (updateChannel_books ..)

theorem grantWaiting_books (c : ChannelName) : ∀ (n : Nat) (s : State), s.SameBooks (s.grantWaiting c n)
  | 0, s => .refl s
  | n + 1, s => by
    unfold State.grantWaiting
    split
    · exact .refl s
    · rename_i id rest _
      have hwait : s.SameBooks (s.setWaits rest) := ⟨rfl, rfl, rfl⟩
      dsimp only
      split
      · exact hwait.trans (grantWaiting_books c n _)
      · have hrequest : ∀ f k, s.SameBooks (((s.setWaits rest).updateChannel c f).requestStream c k).1 :=
          fun f k => (hwait.trans (updateChannel_books _ c f)).trans (requestStream_books _ c k)
        split
        · exact ((hrequest _ _).trans (updateChannel_books ..)).trans (grantWaiting_books c n _)
        · exact hrequest _ _

theorem release_books (c : ChannelName) : s.SameBooks (s.release c) := (updateChannel_books ..).trans (grantWaiting_books ..)

theorem releaseOf_books (id : Nat) : s.SameBooks (s.releaseOf id) := by
  unfold State.releaseOf
  split
  · exact release_books ..
  · exact .refl s

theorem awaitChannel_books (id : Nat) : s.SameBooks (s.awaitChannel id) := by
  unfold State.awaitChannel
  split
  · exact .refl s
  · dsimp only
    split
    · split
      · exact ((updateJob_books ..).trans (requestStream_books ..)).trans (release_books ..)
      · exact (updateJob_books ..).trans (requestStream_books ..)
    · split
      · exact ⟨rfl, rfl, rfl⟩
      · split
        · exact (((updateJob_books ..).trans (updateChannel_books ..)).trans (requestStream_books ..)).trans (release_books ..)
        · exact ((updateJob_books ..).trans (updateChannel_books ..)).trans (requestStream_books ..)

theorem positionJob_books (j : Job) : s.SameBooks (s.positionJob j) := by
  unfold State.positionJob
  split
  · exact .refl s
  · dsimp only
    split
    · exact (((updateJob_books ..).trans (updatePort_books ..)).trans (updatePort_books ..)).trans (awaitChannel_books ..)
    · exact (updateJob_books ..).trans (updatePort_books ..)

theorem startJob_books (j : Job) : s.SameBooks (s.startJob j) := by
  unfold State.startJob
  dsimp only
  split
  · exact enterRetensionWait_books ..
  · split
    · exact awaitChannel_books ..
    · exact positionJob_books ..

/-- The responses that stood stay in front of those that post. -/
def State.Posts (s t : State) : Prop := s.link.responses <+: t.link.responses

theorem posts_of_books {s t : State} (h : s.SameBooks t) : s.Posts t := by
  rw [State.Posts, h.link]

theorem postNotice_posts (id : Nat) : s.Posts (s.postNotice id) := by
  unfold State.postNotice
  split
  · exact List.prefix_refl _
  · split
    · exact List.prefix_refl _
    · exact List.prefix_append ..

theorem offerLoop_posts (p : Fin 4) : ∀ (n : Nat) (s : State), s.Posts (s.offerLoop p n)
  | 0, _ => List.prefix_refl _
  | n + 1, s => by
    unfold State.offerLoop
    split
    · split
      · exact List.prefix_refl _
      · split
        · exact posts_of_books (startJob_books ..)
        · exact ((posts_of_books (updateJob_books ..)).trans (postNotice_posts ..)).trans (offerLoop_posts p n _)
    · exact List.prefix_refl _

theorem afterLeaving_posts (j : Job) : s.Posts (s.afterLeaving j) := by
  unfold State.afterLeaving
  split
  · exact List.prefix_refl _
  · dsimp only
    split
    · exact List.prefix_refl _
    · split
      · exact List.prefix_refl _
      · exact offerLoop_posts ..

end grants

/-! ## HOLD -/

section commands

variable {s : State} {c : Ctx} {id : BitVec 8} {j : Job}

theorem tooLate_iff : j.tooLate = true ↔ j.state = .closing ∨ j.ending ≠ none := by
  simp [Job.tooLate, Option.isSome_iff_ne_none]

theorem hold_range {passes : BitVec 5} (h : passes.toNat < 2 ∨ 16 < passes.toNat) : s.hold c id passes = s.refuse c .badParameter [] :=
  if_pos (by simpa using h)

/-- Within its range HOLD goes on to the job. -/
theorem hold_inRange {passes : BitVec 5} (h1 : 2 ≤ passes.toNat) (h2 : passes.toNat ≤ 16) :
    s.hold c id passes =
      match s.job id.toNat with
      | none => s.refuse c .noSuchJob []
      | some j =>
        if j.level < c.level then s.refuse c .level []
        else if j.tooLate then s.refuse c .tooLate []
        else if 0 < j.holdRemaining then s.answer c .holdIgnored [numberWord j.holdRemaining]
        else (s.updateJob j.id fun k => { k with holdRemaining := passes.toNat }).answer c .done [numberWord passes.toNat] :=
  (if_neg (by simp; omega)).trans (by cases s.job id.toNat <;> rfl)

theorem hold_noJob {passes : BitVec 5} (h1 : 2 ≤ passes.toNat) (h2 : passes.toNat ≤ 16) (hj : s.job id.toNat = none) :
    s.hold c id passes = s.refuse c .noSuchJob [] := by
  rw [hold_inRange h1 h2, hj]

theorem hold_job {passes : BitVec 5} (h1 : 2 ≤ passes.toNat) (h2 : passes.toNat ≤ 16) (hj : s.job id.toNat = some j) :
    s.hold c id passes =
      if j.level < c.level then s.refuse c .level []
      else if j.tooLate then s.refuse c .tooLate []
      else if 0 < j.holdRemaining then s.answer c .holdIgnored [numberWord j.holdRemaining]
      else (s.updateJob j.id fun k => { k with holdRemaining := passes.toNat }).answer c .done [numberWord passes.toNat] := by
  rw [hold_inRange h1 h2, hj]

/-! ## CANCEL -/

theorem cancel_noJob (hj : s.job id.toNat = none) : s.cancel c id = s.refuse c .noSuchJob [] := by
  rw [State.cancel, hj]

theorem cancel_level (hj : s.job id.toNat = some j) (hl : j.level < c.level) : s.cancel c id = s.refuse c .level [] := by
  rw [State.cancel, hj]
  exact if_pos hl

theorem cancel_tooLate (hj : s.job id.toNat = some j) (hl : c.level ≤ j.level) (h : j.tooLate = true) : s.cancel c id = s.refuse c .tooLate [] := by
  rw [State.cancel, hj]
  exact (if_neg (Nat.not_lt.2 hl)).trans (if_pos h)

theorem cancel_now (hj : s.job id.toNat = some j) (hl : c.level ≤ j.level) (h : j.ending = none)
    (hst : j.state ∈ [.queued, .positioning, .awaitingChannel, .reseating, .retensionWait]) :
    s.cancel c id = (s.answer c .done [numberWord j.state.number]).cancelNow j := by
  have hlate : ¬j.tooLate = true := by
    rw [tooLate_iff, h]
    rintro (hc | hc)
    · simp [hc] at hst
    · exact hc rfl
  rw [State.cancel, hj]
  refine (if_neg (Nat.not_lt.2 hl)).trans ((if_neg hlate).trans ?_)
  dsimp only
  cases hs : j.state with
  | streaming | closing => simp [hs] at hst
  | _ => rfl

theorem cancel_streaming (hj : s.job id.toNat = some j) (hl : c.level ≤ j.level) (h : j.ending = none) (hst : j.state = .streaming) :
    s.cancel c id = (s.answer c .done [numberWord j.state.number]).cancelStream j := by
  have hlate : ¬j.tooLate = true := by
    rw [tooLate_iff, h, hst]
    simp
  rw [State.cancel, hj]
  refine (if_neg (Nat.not_lt.2 hl)).trans ((if_neg hlate).trans ?_)
  dsimp only
  rw [hst]

theorem cancelStream_draining {d : State} (hd : s.decideEnding j.id (.cancelled .host) = d) (hp : j.phase = .draining) :
    s.cancelStream j = (d.releaseOf j.id).checkDrained j.id := by
  rw [State.cancelStream, hd, hp]

theorem cancelStream_capturing {d : State} (hd : s.decideEnding j.id (.cancelled .host) = d) (hp : j.phase = .capturing) {ch : ChannelName}
    (hch : d.channelOf j.id = some ch) :
    s.cancelStream j = if (d.channel ch).receipt.isNone then d.endPassCancelled ch
      else d.updateChannel ch fun v => { v with endPending := some .cancel } := by
  rw [State.cancelStream, hd, hp]
  dsimp only
  rw [hch]

theorem channelOf_owner {ch : ChannelName} {n : Nat} (h : s.channelOf n = some ch) : (s.channel ch).owner = some n := by
  unfold State.channelOf at h
  split at h
  · rename_i ho
    cases h
    exact beq_iff_eq.1 ho
  · split at h
    · rename_i ho
      cases h
      exact beq_iff_eq.1 ho
    · cases h

theorem decide_of_open (h : j.ending = none) (e : Ending) : j.decide e = { j.breakHold with ending := some e } := by
  rw [Job.decide, h]

/-- A host's cancel of a queued job neither parks its port nor marks it to park. -/
theorem afterLeaving_queued {k : Job} (hk : k.ending = some (.cancelled .host)) (hq : k.state = .queued) : s.afterLeaving k = s.offer k.drive := by
  have hp : k.parks (.cancelled .host) = false := by
    rw [Job.parks, hq]
    exact Bool.and_false _
  have ha : k.parksOnArrival (.cancelled .host) = false := by
    rw [Job.parksOnArrival, hq]
    exact Bool.and_false _
  rw [State.afterLeaving, hk]
  dsimp only
  rw [hp, ha]
  rfl

end commands

end Sys2Proof.Machine

namespace Sys2Proof

open Machine

/-- Settles O29: the tests of HOLD in their order. -/
theorem holdJob : Obligations.HoldJob := by
  intro s q tag id passes hs
  have hexec : exec (.hold q tag id passes) s = .next ((s.taken q).hold ⟨q, tag, 26, s.link.level q⟩ id passes) :=
    exec_performs (c := .hold id passes) hs rfl rfl (.inl rfl)
  refine ⟨fun h => refuses_of_exec hexec (hold_range h), fun h1 h2 => ⟨fun hj => refuses_of_exec hexec (hold_noJob h1 h2 hj), fun j hj => ?_⟩⟩
  have hjob := hold_job (s := s.taken q) (c := ⟨q, tag, 26, s.link.level q⟩) h1 h2 hj
  refine ⟨fun hl => ?_, fun hl hlate => ?_, fun hl hclosing hending => ?_⟩
  · rw [if_pos hl] at hjob
    exact refuses_of_exec hexec hjob
  · rw [if_neg (Nat.not_lt.2 hl), if_pos (tooLate_iff.2 hlate)] at hjob
    exact refuses_of_exec hexec hjob
  · have hlate : ¬j.tooLate = true := by
      rw [tooLate_iff, hending]
      rintro (hc | hc)
      · exact hclosing hc
      · exact hc rfl
    rw [if_neg (Nat.not_lt.2 hl), if_neg hlate] at hjob
    refine ⟨fun hhold => ?_, fun hhold => ?_⟩
    · rw [if_pos hhold] at hjob
      exact answers_of_exec hexec hjob
    · rw [if_neg (by omega)] at hjob
      exact answers_of_exec hexec hjob

end Sys2Proof

/-! CANCEL (R82 to R85): how each state of a job takes its cancel. -/

namespace Sys2Proof.Machine

theorem finishJob_eq {u : State} {j : Job} {e : Ending} (hj : u.job j.id = some j) (he : j.ending = some e) :
    u.finishJob j.id = (u.left j e).afterLeaving j := by
  unfold State.finishJob
  rw [hj]
  simp only [postNotice_eq hj he]

/-- A leaving posts the notice of its job first, and the job is in the table no more. -/
theorem finishJob_leaves {u : State} {j : Job} {e : Ending} (hj : u.job j.id = some j) (he : j.ending = some e) :
    (∃ more, (u.finishJob j.id).link.responses = u.link.responses ++ [j.notice e (u.bandEntries j)] ++ more)
      ∧ ∀ x ∈ (u.finishJob j.id).jobs, x.id ≠ j.id := by
  rw [finishJob_eq hj he]
  obtain ⟨more, hmore⟩ := afterLeaving_posts (u.left j e) j
  refine ⟨⟨more, hmore.symm⟩, fun x hx heq => ?_⟩
  have hids := (afterLeaving_settles (u.left j e) j).bounds.ids
  have hmem : x.id ∈ (u.left j e).jobs.map Job.id := hids.subset (List.mem_map_of_mem hx)
  obtain ⟨y, hy, hyx⟩ := List.mem_map.1 hmem
  have hne := (List.mem_filter.1 hy).2
  simp [hyx, heq] at hne

/-- The jobs a leaving takes the table to, whatever record it left under its id. -/
theorem left_jobs (u : State) (j k : Job) (e : Ending) (hid : k.id = j.id) :
    ((u.withJob k).left k e).jobs = u.jobs.filter fun x => x.id != j.id := by
  rw [left_withJob u e rfl, State.left, hid]

section cancel

variable {s : State} {q : Queue} {tag id : BitVec 8} {j k : Job} {u : State}

/-- The parts of a cancel's outset: the job's record, found under its id with its ending decided. -/
structure State.CancelsTo (s u : State) (j k : Job) (answer : List Word) : Prop where
  id : k.id = j.id
  ending : k.ending = some (.cancelled .host)
  state : k.state = j.state
  drive : k.drive = j.drive
  job : u.job k.id = some k
  oneId : u.OneId
  waits : k.id ∉ u.waits
  link : u.link.responses = s.link.responses ++ [answer]
  band : u.bandEntries k = s.bandEntries j
  decided : ∀ t : State, (∃ l, t = { s with link := l }) → t.link = u.link → t.decideEnding j.id (.cancelled .host) = u

theorem cancelsTo (hs : s.JobsSound) (hj : s.job j.id = some j) (hopen : j.ending = none) (q : Queue) (r : List Word)
    (hk : k = { j.breakHold with ending := some (.cancelled .host) }) : s.CancelsTo ((s.stopped j k).answered q r) j k r := by
  have hdecide : k = j.decide (.cancelled .host) := hk.trans (decide_of_open hopen _).symm
  have hid : k.id = j.id := hdecide ▸ decide_id j _
  refine ⟨hid, by rw [hk], hdecide ▸ decide_state j _, hdecide ▸ decide_drive j _, ?_, stopped_oneId hs.oneId j k, ?_, rfl, ?_, ?_⟩
  · rw [hid]
    exact stopped_job (u := s) hj hid
  · rw [hid]
    exact stopped_waits s j k
  · rw [hdecide]
    exact bandEntries_decide s j _
  · rintro t ⟨l, rfl⟩ hlink
    have hdecided := decideEnding_eq (u := { s with link := l }) hs.oneId hj (.cancelled .host)
    rw [hdecided, ← hdecide]
    cases hlink
    rfl

end cancel

end Sys2Proof.Machine

namespace Sys2Proof

open Machine

/-- Settles O28: the tests of CANCEL, and then the job by its state. -/
theorem cancelJob : Obligations.CancelJob := by
  intro s q tag id hs
  have hexec : exec (.cancel q tag id) s = .next ((s.taken q).cancel ⟨q, tag, 25, s.link.level q⟩ id) :=
    exec_performs (c := .cancel id) hs rfl rfl (.inl rfl)
  refine ⟨fun hj => refuses_of_exec hexec (cancel_noJob hj), fun j hj =>
    ⟨fun hl => refuses_of_exec hexec (cancel_level (s := s.taken q) (c := ⟨q, tag, 25, s.link.level q⟩) hj hl),
      fun hl hlate => refuses_of_exec hexec (cancel_tooLate (s := s.taken q) (c := ⟨q, tag, 25, s.link.level q⟩) hj hl (tooLate_iff.2 hlate)),
      fun hl hopen hsound cancelled u hcancelled hu => ?_⟩⟩
  obtain ⟨hmem, hjid⟩ := job_mem hj
  have hjob : s.job j.id = some j := job_of_mem hsound hmem
  have hto := cancelsTo hsound hjob hopen q (answerOf q tag 25 .done [numberWord j.state.number]) hcancelled
  rw [← hu] at hto
  have hdecided : (s.answered q (answerOf q tag 25 .done [numberWord j.state.number])).decideEnding j.id (.cancelled .host) = u :=
    hto.decided _ ⟨_, rfl⟩ (by rw [hu]; rfl)
  have hnow : j.state ∈ [.queued, .positioning, .awaitingChannel, .reseating, .retensionWait] →
      exec (.cancel q tag id) s = .next ((u.releaseOf cancelled.id).finishJob cancelled.id) := by
    intro hst
    rw [hexec, cancel_now (s := s.taken q) (c := ⟨q, tag, 25, s.link.level q⟩) hj hl hopen hst, State.answer_taken, State.cancelNow]
    rw [hto.id]
    exact congrArg (fun d : State => Host.Outcome.next ((d.releaseOf j.id).finishJob j.id)) hdecided
  have hstream : j.state = .streaming → exec (.cancel q tag id) s
      = .next ((s.answered q (answerOf q tag 25 .done [numberWord j.state.number])).cancelStream j) := by
    intro hst
    rw [hexec, cancel_streaming (s := s.taken q) (c := ⟨q, tag, 25, s.link.level q⟩) hj hl hopen hst, State.answer_taken]
  have hkeep := releaseOf_keeps (k := cancelled.id) hto.waits
  have hbooks := releaseOf_books u cancelled.id
  refine ⟨fun hst => ?atOnce, fun hst hch hactive => ?queued, fun hst hphase htable => ?drains, fun c hst hphase hch =>
    ⟨fun r hr => ?inReceipt, fun hr hport htable => ?between⟩⟩
  case atOnce =>
    obtain ⟨⟨more, hmore⟩, hgone⟩ := finishJob_leaves (hkeep.job.trans hto.job) hto.ending
    refine ⟨_, _, more, hnow hst, hto.id ▸ releaseOf_spec hto.oneId _, finishJob_spec (hkeep.oneId hto.oneId) (hkeep.job.trans hto.job) hto.ending,
      ?_, fun x hx => hto.id ▸ hgone x hx⟩
    rw [hmore, hbooks.link, hbooks.bandEntries, hto.link, hto.band, List.append_assoc s.link.responses]
    rfl
  case queued =>
    have hnone : u.releaseOf cancelled.id = u := by
      unfold State.releaseOf
      rw [hto.id, show u.channelOf j.id = none by rw [hu]; exact hch]
    have hleft : (u.left cancelled (.cancelled .host)).offer cancelled.drive = u.left cancelled (.cancelled .host) := by
      refine offer_of_not_offerable (.inr ?_)
      obtain ⟨x, hx⟩ := Option.isSome_iff_exists.1 hactive
      obtain ⟨hxmem, hxdrive, hxstate⟩ := activeJob_mem hx
      have hne : x.id ≠ j.id := fun heq => hxstate (unique_id hsound.apart hxmem hmem heq ▸ hst)
      refine ⟨x, List.mem_filter.2 ⟨?_, by simpa [hto.id] using hne⟩, hxdrive.trans hto.drive.symm, hxstate⟩
      rw [hu]
      exact List.mem_map.2 ⟨x, hxmem, if_neg (by simpa [hto.id] using hne)⟩
    have hjobs : (u.left cancelled (.cancelled .host)).jobs = s.jobs.filter fun x => x.id != j.id := by
      rw [← left_jobs s j cancelled (.cancelled .host) hto.id, hu]
      rfl
    have hband : u.bandEntries cancelled = s.bandEntries j := hto.band
    rw [hnow (by simp [hst]), hnone, finishJob_eq hto.job hto.ending, afterLeaving_queued hto.ending (hto.state.trans hst), hleft]
    rw [← hjobs, ← hband]
    simp only [State.left, hto.link, List.append_assoc, List.singleton_append]
    rw [hu, hst]
    rfl
  case drains =>
    refine ⟨_, u.releaseOf cancelled.id, ?_, hto.id ▸ releaseOf_spec hto.oneId _,
      checkDrained_spec (hkeep.oneId hto.oneId) (hkeep.oneKey (by rw [hu]; exact htable.oneKey)) (hkeep.job.trans hto.job)⟩
    rw [hstream hst, cancelStream_draining hdecided hphase, hto.id]
  case inReceipt =>
    have hch' : u.channelOf j.id = some c := by rw [hu]; exact hch
    have hchannel : u.channel c = s.channel c := by rw [hu]; cases c <;> rfl
    rw [hstream hst, cancelStream_capturing hdecided hphase hch', hchannel, hr, Option.isNone_some, if_neg Bool.false_ne_true, updateChannel_eq,
      hchannel]
  case between =>
    have hch' : u.channelOf j.id = some c := by rw [hu]; exact hch
    have hchannel : u.channel c = s.channel c := by rw [hu]; cases c <;> rfl
    refine ⟨_, ?_, endPassCancelled_spec hto.oneId (by rw [hu]; exact htable.oneKey) (hto.id ▸ channelOf_owner hch') hto.job (hchannel ▸ hr) ?_⟩
    · rw [hstream hst, cancelStream_capturing hdecided hphase hch', hchannel, hr, Option.isNone_none, if_pos rfl]
    · rw [hto.drive, hu]
      exact hport

end Sys2Proof

/-! LOOKUP and FIND (R172 to R174) with the layouts of the entry record (R201, R205). -/

namespace Sys2Proof.Machine

open Laws

/-! ## Layouts -/

theorem keyWord_laidOut (handle cylinder head sector : Nat) :
    laidOut (keyWord handle cylinder head sector) [(31, 26, handle), (25, 16, cylinder), (15, 10, head), (9, 2, sector), (1, 0, 0)] := by
  unfold keyWord
  simp only [laidOut_cons, toNat_joined, BitVec.toNat_ofNat]
  refine ⟨?_, ?_, ?_, ?_, ?_, laidOut_nil _⟩
  all_goals omega

theorem idxOf_entryState (st : EntryState) :
    [EntryState.expected, .headerOnly, .weak, .tentative, .settled, .disputed, .synthesized, .amended, .missing, .exhausted].idxOf st
      = st.number := by
  cases st <;> rfl

theorem amendSource_number (a : Option AmendSource) :
    (match a with | some .hostData => 1 | some (.chosen _) => 2 | none => 3) = AmendSource.number a := by
  rcases a with _ | _ | _ <;> rfl

theorem amendSource_index (a : Option AmendSource) :
    (match a with | some (.chosen k) => k | some .hostData => 3 | none => 3) = AmendSource.index a := by
  rcases a with _ | _ | _ <;> rfl

/-- The second word of an entry record. -/
def Entry.stateWord (e : Entry) : Word :=
  bits 2 e.size ++ bits 4 e.state.number ++ bits 3 (e.best.getD 7) ++ bits 3 e.candidates.length ++ bits 3 e.quorum
    ++ bits 3 (e.settledQuorum.getD 7) ++ bits 2 (AmendSource.number e.amendSource) ++ bits 2 (AmendSource.index e.amendSource)
    ++ BitVec.ofBool e.pinned ++ bits 8 e.lateVariants ++ 0#1

/-- The third word of an entry record. -/
def Entry.countWord (e : Entry) : Word := bits 16 e.readings ++ bits 8 e.headerOnly ++ bits 8 e.dropped

theorem entry_words (e : Entry) (via : Option Via) (w : Nat) :
    e.words via w = [e.key.wordVia via, e.stateWord, e.countWord] ++ e.candidates.flatMap (fun c => c.words w) := rfl

theorem stateWord_laidOut (e : Entry) : laidOut e.stateWord
    [(31, 30, e.size), (29, 26, e.state.number), (25, 23, e.best.getD 7), (22, 20, e.candidates.length), (19, 17, e.quorum),
     (16, 14, e.settledQuorum.getD 7), (13, 12, AmendSource.number e.amendSource), (11, 10, AmendSource.index e.amendSource),
     (9, 9, e.pinned.toNat), (8, 1, e.lateVariants), (0, 0, 0)] := by
  have hpinned := toNat_flag_lt e.pinned
  unfold Entry.stateWord
  simp only [laidOut_cons, toNat_joined, BitVec.toNat_ofNat, toNat_flag] at hpinned ⊢
  refine ⟨?_, ?_, ?_, ?_, ?_, ?_, ?_, ?_, ?_, ?_, ?_, laidOut_nil _⟩
  all_goals omega

theorem countWord_laidOut (e : Entry) : laidOut e.countWord [(31, 16, e.readings), (15, 8, e.headerOnly), (7, 0, e.dropped)] := by
  unfold Entry.countWord
  simp only [laidOut_cons, toNat_joined, BitVec.toNat_ofNat]
  refine ⟨?_, ?_, ?_, laidOut_nil _⟩
  all_goals omega

theorem idxOf_origin (o : Origin) : [Origin.read, .synth, .host].idxOf o = o.number := by cases o <;> rfl

theorem checkNumber_eq (b : Bool) : checkNumber b = if b then 0 else 1 := by cases b <;> rfl

theorem candidateWord_laidOut (c : Candidate) (w : Nat) :
    laidOut (bits 1 (checkNumber c.clean) ++ bits 2 c.origin.number ++ bits 8 c.agree ++ bits 4 c.firstPass ++ bits 4 c.uncertain.length
        ++ BitVec.ofBool c.moreUncertain ++ 0#1 ++ bits 11 (windowPosition c.uncertain w 0))
      [(31, 31, checkNumber c.clean), (30, 29, c.origin.number), (28, 21, c.agree), (20, 17, c.firstPass),
       (16, 13, c.uncertain.length), (12, 12, c.moreUncertain.toNat), (11, 11, 0), (10, 0, windowPosition c.uncertain w 0)] := by
  have hmore := toNat_flag_lt c.moreUncertain
  simp only [laidOut_cons, toNat_joined, BitVec.toNat_ofNat, toNat_flag] at hmore ⊢
  refine ⟨?_, ?_, ?_, ?_, ?_, ?_, ?_, ?_, laidOut_nil _⟩
  all_goals omega

theorem windowWord_laidOut (a b : Nat) : laidOut (bits 11 a ++ bits 11 b ++ 0#10) [(31, 21, a), (20, 10, b), (9, 0, 0)] := by
  simp only [laidOut_cons, toNat_joined, BitVec.toNat_ofNat]
  refine ⟨?_, ?_, ?_, laidOut_nil _⟩
  all_goals omega

/-! ## LOOKUP and FIND -/

section commands

variable {s : State} {c : Ctx} {k : KeyField} {r : Resolved} {window : BitVec 8} {states : Word}

theorem lookup_noEntry (h : s.chainKey c.level k = .ok r) (he : s.entry r.key = none) :
    s.lookup c k window = s.refuseKey c r .noEntry [] := by
  rw [State.lookup]
  simp only [h, he]

theorem lookup_entry (h : s.chainKey c.level k = .ok r) {e : Entry} (he : s.entry r.key = some e) :
    s.lookup c k window = s.answer c .done (e.words r.via window.toNat) := by
  rw [State.lookup]
  simp only [h, he]

theorem covers_iff (r : Resolved) (cylinder : Nat) :
    r.covers cylinder = true ↔ ∀ v, r.via = some v → v.offset ≤ cylinder ∧ cylinder < v.offset + v.limit := by
  unfold Resolved.covers
  cases r.via <;> simp

theorem found_iff (e : Entry) : e.found r states = true ↔ e.key.handle = r.handle ∧ e.key.before r.key = false
    ∧ (∀ v, r.via = some v → v.offset ≤ e.key.cylinder ∧ e.key.cylinder < v.offset + v.limit) ∧ states.getLsbD e.state.number = true := by
  rw [← covers_iff, Entry.found, Bool.and_eq_true, Bool.and_eq_true, Bool.and_eq_true, beq_iff_eq, Bool.not_eq_true', and_assoc, and_assoc]

theorem find_none (h : s.chainKey c.level k = .ok r) (hst : states = 0) : s.find c k window states = s.refuseKey c r .badParameter [] := by
  rw [State.find]
  simp only [h, hst, if_true]

theorem find_nothing (h : s.chainKey c.level k = .ok r) (hst : states ≠ 0) (hf : (s.entries.find? fun e => e.found r states) = none) :
    s.find c k window states = s.answer c .nothing [] := by
  rw [State.find]
  simp only [h, hst, if_false, hf]

theorem find_first (h : s.chainKey c.level k = .ok r) (hst : states ≠ 0) {e : Entry}
    (hf : (s.entries.find? fun e => e.found r states) = some e) : s.find c k window states = s.answer c .done (e.words r.via window.toNat) := by
  rw [State.find]
  simp only [h, hst, if_false, hf]

end commands

/-- A refusal of a record command's own checks begins with the key (log 13). -/
theorem refuses_of_refuseKey {s t : State} {i : Instr} {q : Queue} {tag command : BitVec 8} {level : Nat} {code : RefusalCode} {r : Resolved}
    {body : List Word} (h : exec i s = .next t) (ht : t = (s.taken q).refuseKey ⟨q, tag, command, level⟩ r code body) :
    s.Refuses i q tag command code (r.keyReport :: body) :=
  refuses_of_exec h ht

end Sys2Proof.Machine

namespace Sys2Proof

open Machine

/-- Settles O30: the layouts of the words, and the first entry that is found. -/
theorem lookupAndFind : Obligations.LookupAndFind := by
  refine ⟨keyWord_laidOut, fun k => ⟨rfl, fun v => rfl⟩, fun r => ⟨rfl, rfl, rfl⟩, fun e via w => ?entry, fun c w => ?candidate,
    fun s q tag window k r hs hwindow hk => ?commands⟩
  case entry =>
    refine ⟨e.stateWord, e.countWord, entry_words e via w, ?_, countWord_laidOut e⟩
    rw [idxOf_entryState]
    have hnumber := amendSource_number e.amendSource
    have hindex := amendSource_index e.amendSource
    have hword := stateWord_laidOut e
    rw [← hnumber, ← hindex] at hword
    exact hword
  case candidate =>
    refine ⟨_, _, rfl, ?_, windowWord_laidOut _ _⟩
    rw [idxOf_origin, ← checkNumber_eq]
    exact candidateWord_laidOut c w
  case commands =>
    have hlookup : exec (.lookup q tag k window) s = .next ((s.taken q).lookup ⟨q, tag, 32, s.link.level q⟩ k window) :=
      exec_performs (c := .lookup k window) hs rfl (decide_eq_false (by omega)) (.inl rfl)
    have hfind : ∀ states : Word, states.extractLsb' 10 22 = 0 →
        exec (.find q tag k window states) s = .next ((s.taken q).find ⟨q, tag, 33, s.link.level q⟩ k window states) := by
      intro states hst
      refine exec_performs (c := .find k window states) hs rfl ?_ (.inl rfl)
      rw [malformed, decide_eq_false (by omega), hst]
      rfl
    have hk' : (s.taken q).chainKey (s.link.level q) k = .ok r := hk
    refine ⟨fun he => ?_, fun e he => ?_, ?_, fun states hne hst p hp => ⟨fun hnone => ?_, fun before e after hsplit hbefore he => ?_⟩⟩
    · exact refuses_of_refuseKey hlookup (lookup_noEntry (c := ⟨q, tag, 32, s.link.level q⟩) hk' he)
    · exact answers_of_exec hlookup (lookup_entry (c := ⟨q, tag, 32, s.link.level q⟩) hk' he)
    · exact refuses_of_refuseKey (hfind 0 (by decide)) (find_none (c := ⟨q, tag, 33, s.link.level q⟩) hk' rfl)
    · have hf : (s.entries.find? fun e => e.found r states) = none :=
        List.find?_eq_none.2 fun e he hfound => hnone e he ((hp e).2 ((found_iff e).1 hfound))
      exact answers_of_exec (hfind states hst) (find_nothing (s := s.taken q) (c := ⟨q, tag, 33, s.link.level q⟩) hk' hne hf)
    · have hf : (s.entries.find? fun e => e.found r states) = some e := by
        rw [hsplit, List.find?_append, List.find?_eq_none.2 fun x hx hfound => hbefore x hx ((hp x).2 ((found_iff x).1 hfound)),
          Option.none_or]
        exact List.find?_cons_of_pos ((found_iff e).2 ((hp e).1 he))
      exact answers_of_exec (hfind states hst) (find_first (s := s.taken q) (c := ⟨q, tag, 33, s.link.level q⟩) hk' hne hf)

end Sys2Proof

/-! FETCH, CHOOSE and AMEND (R175 to R179): their tests in their order. -/

namespace Sys2Proof.Machine

section commands

variable {s : State} {c : Ctx} {k : KeyField} {r : Resolved} {e : Entry} {candidate : BitVec 8} {check : Word}

/-! ## FETCH -/

theorem chosen_noBest (h : candidate = 4) (hb : e.best = none) : e.chosen candidate = .error (.noBest, e.state.number) := by
  rw [Entry.chosen, if_pos h, hb]

theorem chosen_noCandidate (h : candidate ≠ 4) (hl : e.candidates.length ≤ candidate.toNat) :
    e.chosen candidate = .error (.noCandidate, e.candidates.length) := by
  rw [Entry.chosen, if_neg h, List.getElem?_eq_none hl]

theorem chosen_ok {i : Nat} {cand : Candidate} (h : (candidate = 4 ∧ e.best = some i) ∨ (candidate ≠ 4 ∧ candidate.toNat = i))
    (hc : e.candidates[i]? = some cand) : e.chosen candidate = .ok (i, cand) := by
  rw [Entry.chosen]
  rcases h with ⟨h4, hb⟩ | ⟨h4, rfl⟩
  · rw [if_pos h4, hb]
    simp only [hc]
  · rw [if_neg h4, hc]

theorem fetch_noEntry (h : s.chainKey c.level k = .ok r) (he : s.entry r.key = none) :
    s.fetch c k candidate = s.refuseKey c r .noEntry [] := by
  rw [State.fetch]
  simp only [h, he]

theorem fetch_error (h : s.chainKey c.level k = .ok r) (he : s.entry r.key = some e) {code : RefusalCode} {n : Nat}
    (hc : e.chosen candidate = .error (code, n)) : s.fetch c k candidate = s.refuseKey c r code [numberWord n] := by
  rw [State.fetch]
  simp only [h, he, hc]

theorem fetch_busy (h : s.chainKey c.level k = .ok r) (he : s.entry r.key = some e) {i : Nat} {cand : Candidate}
    (hc : e.chosen candidate = .ok (i, cand)) {t : Transfer} (ht : s.transfer = some t) : s.fetch c k candidate = s.refusePortBusy c r t := by
  rw [State.fetch]
  simp only [h, he, hc, ht]

theorem fetch_opens (h : s.chainKey c.level k = .ok r) (he : s.entry r.key = some e) {i : Nat} {cand : Candidate}
    (hc : e.chosen candidate = .ok (i, cand)) (ht : s.transfer = none) :
    s.fetch c k candidate
      = ((s.setPinned e.key true).setTransfer (some (outboundTransfer c e r.medium.kind i cand))).answer c .done
          (r.keyReport :: cand.report i ++ [numberWord e.state.number, numberWord e.size, numberWord (sectorWords e.size + 1)]) := by
  rw [State.fetch]
  simp only [h, he, hc, ht]
  rfl

/-! ## CHOOSE -/

theorem choosable_iff (st : EntryState) : st.choosable = true ↔ st ∈ [.disputed, .tentative, .weak, .exhausted] := by
  cases st <;> decide

theorem choose_noEntry (h : s.chainKey c.level k = .ok r) (he : s.entry r.key = none) :
    s.choose c k candidate = s.refuseKey c r .noEntry [] := by
  rw [State.choose]
  simp only [h, he]

/-- A CHOOSE at an entry goes on to its pin, its state and its candidates. -/
theorem choose_entry (h : s.chainKey c.level k = .ok r) (he : s.entry r.key = some e) :
    s.choose c k candidate =
      if e.pinned then s.refuseKey c r .pinned []
      else if !e.state.choosable then s.refuseKey c r .state [numberWord e.state.number]
      else match e.candidates[candidate.toNat]? with
        | none => s.refuseKey c r .noCandidate [numberWord e.candidates.length]
        | some cand => (s.updateEntry e.key fun e => e.amend candidate.toNat (.chosen candidate.toNat)).answer c .done
            (r.keyReport :: numberWord e.state.number :: cand.report candidate.toNat) := by
  rw [State.choose]
  simp only [h, he] <;> rfl

theorem choose_pinned (h : s.chainKey c.level k = .ok r) (he : s.entry r.key = some e) (hp : e.pinned = true) :
    s.choose c k candidate = s.refuseKey c r .pinned [] := by
  rw [choose_entry h he, if_pos hp]

theorem choose_state (h : s.chainKey c.level k = .ok r) (he : s.entry r.key = some e) (hp : e.pinned = false)
    (hst : e.state ∉ [.disputed, .tentative, .weak, .exhausted]) :
    s.choose c k candidate = s.refuseKey c r .state [numberWord e.state.number] := by
  have hno : (!e.state.choosable) = true := by
    rw [Bool.not_eq_true', ← Bool.not_eq_true, choosable_iff]
    exact hst
  rw [choose_entry h he, if_neg (by simp [hp]), if_pos hno]

theorem choose_noCandidate (h : s.chainKey c.level k = .ok r) (he : s.entry r.key = some e) (hp : e.pinned = false)
    (hst : e.state ∈ [.disputed, .tentative, .weak, .exhausted]) (hc : e.candidates.length ≤ candidate.toNat) :
    s.choose c k candidate = s.refuseKey c r .noCandidate [numberWord e.candidates.length] := by
  rw [choose_entry h he, if_neg (by simp [hp]), if_neg (by simp [(choosable_iff _).2 hst]), List.getElem?_eq_none hc]

theorem choose_accepted (h : s.chainKey c.level k = .ok r) (he : s.entry r.key = some e) (hp : e.pinned = false)
    (hst : e.state ∈ [.disputed, .tentative, .weak, .exhausted]) {cand : Candidate} (hc : e.candidates[candidate.toNat]? = some cand) :
    s.choose c k candidate = (s.updateEntry e.key fun e => e.amend candidate.toNat (.chosen candidate.toNat)).answer c .done
      (r.keyReport :: numberWord e.state.number :: cand.report candidate.toNat) := by
  rw [choose_entry h he, if_neg (by simp [hp]), if_neg (by simp [(choosable_iff _).2 hst]), hc]

/-! ## AMEND -/

theorem amend_noEntry (h : s.chainKey c.level k = .ok r) (he : s.entry r.key = none) : s.amend c k check = s.refuseKey c r .noEntry [] := by
  rw [State.amend]
  simp only [h, he]

theorem amend_wide (h : s.chainKey c.level k = .ok r) (he : s.entry r.key = some e) (hk : r.medium.kind = .floppy) (hc : 65535 < check.toNat) :
    s.amend c k check = s.refuseKey c r .badParameter [] := by
  rw [State.amend]
  simp only [h, he]
  exact if_pos (by simp [hk, hc])

/-- With a check value that fits, an AMEND at an entry goes on to its pin, the data port and the pool. -/
theorem amend_fits (h : s.chainKey c.level k = .ok r) (he : s.entry r.key = some e) (hfit : r.medium.kind ≠ .floppy ∨ check.toNat ≤ 65535) :
    s.amend c k check =
      if e.pinned then s.refuseKey c r .pinned []
      else match s.transfer with
        | some t => s.refusePortBusy c r t
        | none =>
          match s.claimFrame with
          | none => s.refuseKey c r .noFrame []
          | some (f, s) => (s.setTransfer (some (inboundTransfer c e r.medium.kind f check))).answer c .done
              [r.keyReport, numberWord e.state.number, numberWord e.size, check, numberWord (sectorWords e.size)] := by
  rw [State.amend]
  simp only [h, he]
  refine (if_neg ?_).trans rfl
  rcases hfit with hk | hc
  · simp [hk]
  · simp [Nat.not_lt.2 hc]

theorem amend_pinned (h : s.chainKey c.level k = .ok r) (he : s.entry r.key = some e) (hfit : r.medium.kind ≠ .floppy ∨ check.toNat ≤ 65535)
    (hp : e.pinned = true) : s.amend c k check = s.refuseKey c r .pinned [] := by
  rw [amend_fits h he hfit, if_pos hp]

theorem amend_busy (h : s.chainKey c.level k = .ok r) (he : s.entry r.key = some e) (hfit : r.medium.kind ≠ .floppy ∨ check.toNat ≤ 65535)
    (hp : e.pinned = false) {t : Transfer} (ht : s.transfer = some t) : s.amend c k check = s.refusePortBusy c r t := by
  rw [amend_fits h he hfit, if_neg (by simp [hp]), ht]

theorem amend_noFrame (h : s.chainKey c.level k = .ok r) (he : s.entry r.key = some e) (hfit : r.medium.kind ≠ .floppy ∨ check.toNat ≤ 65535)
    (hp : e.pinned = false) (ht : s.transfer = none) (hpool : s.pool = []) : s.amend c k check = s.refuseKey c r .noFrame [] := by
  have hclaim : s.claimFrame = none := by rw [State.claimFrame, hpool]
  rw [amend_fits h he hfit, if_neg (by simp [hp]), ht]
  simp only [hclaim]

theorem amend_opens (h : s.chainKey c.level k = .ok r) (he : s.entry r.key = some e) (hfit : r.medium.kind ≠ .floppy ∨ check.toNat ≤ 65535)
    (hp : e.pinned = false) (ht : s.transfer = none) {frame : Nat} {rest : List Nat} (hpool : s.pool = frame :: rest) :
    s.amend c k check = ((s.setPool rest).setTransfer (some (inboundTransfer c e r.medium.kind frame check))).answer c .done
      [r.keyReport, numberWord e.state.number, numberWord e.size, check, numberWord (sectorWords e.size)] := by
  have hclaim : s.claimFrame = some (frame, s.setPool rest) := by rw [State.claimFrame, hpool]
  rw [amend_fits h he hfit, if_neg (by simp [hp]), ht]
  simp only [hclaim]

end commands

end Sys2Proof.Machine

namespace Sys2Proof

open Machine

/-- Settles O31: the tests of FETCH, and the transfer it opens. -/
theorem fetchOpensTransfer : Obligations.FetchOpensTransfer := by
  intro s q tag candidate k r hs hcandidate hk
  have hexec : exec (.fetch q tag k candidate) s = .next ((s.taken q).fetch ⟨q, tag, 34, s.link.level q⟩ k candidate) :=
    exec_performs (c := .fetch k candidate) hs rfl (decide_eq_false (by omega)) (.inl rfl)
  have hk' : (s.taken q).chainKey (s.link.level q) k = .ok r := hk
  refine ⟨fun he => refuses_of_refuseKey hexec (fetch_noEntry (c := ⟨q, tag, 34, s.link.level q⟩) hk' he), fun e he =>
    ⟨fun h4 hb => ?_, fun hl h4 => ?_, fun i cand hi hc => ⟨fun t ht => ?_, fun ht => ?_⟩⟩⟩
  · exact refuses_of_refuseKey hexec (fetch_error (c := ⟨q, tag, 34, s.link.level q⟩) hk' he (chosen_noBest h4 hb))
  · exact refuses_of_refuseKey hexec (fetch_error (c := ⟨q, tag, 34, s.link.level q⟩) hk' he (chosen_noCandidate h4 hl))
  · exact refuses_of_refuseKey hexec (fetch_busy (c := ⟨q, tag, 34, s.link.level q⟩) hk' he (chosen_ok hi hc) ht)
  · exact answers_of_exec hexec (fetch_opens (c := ⟨q, tag, 34, s.link.level q⟩) hk' he (chosen_ok hi hc) ht)

/-- Settles O32: the tests of CHOOSE, and the entry it amends. -/
theorem chooseAmendsEntry : Obligations.ChooseAmendsEntry := by
  intro s q tag candidate k r hs hcandidate hk
  have hexec : exec (.choose q tag k candidate) s = .next ((s.taken q).choose ⟨q, tag, 35, s.link.level q⟩ k candidate) :=
    exec_performs (c := .choose k candidate) hs rfl (decide_eq_false (by omega)) (.inl rfl)
  have hk' : (s.taken q).chainKey (s.link.level q) k = .ok r := hk
  refine ⟨fun he => refuses_of_refuseKey hexec (choose_noEntry (c := ⟨q, tag, 35, s.link.level q⟩) hk' he), fun e he =>
    ⟨fun hp => ?_, fun hp hst => ?_, fun hp hst => ⟨fun hl => ?_, fun cand hc => ?_⟩⟩⟩
  · exact refuses_of_refuseKey hexec (choose_pinned (c := ⟨q, tag, 35, s.link.level q⟩) hk' he hp)
  · exact refuses_of_refuseKey hexec (choose_state (c := ⟨q, tag, 35, s.link.level q⟩) hk' he hp hst)
  · exact refuses_of_refuseKey hexec (choose_noCandidate (c := ⟨q, tag, 35, s.link.level q⟩) hk' he hp hst hl)
  · exact answers_of_exec hexec (choose_accepted (c := ⟨q, tag, 35, s.link.level q⟩) hk' he hp hst hc)

/-- Settles O33: the tests of AMEND, and the transfer it opens. -/
theorem amendOpensTransfer : Obligations.AmendOpensTransfer := by
  intro s q tag k check r hs hk
  have hexec : exec (.amend q tag k check) s = .next ((s.taken q).amend ⟨q, tag, 36, s.link.level q⟩ k check) :=
    exec_performs (c := .amend k check) hs rfl rfl (.inl rfl)
  have hk' : (s.taken q).chainKey (s.link.level q) k = .ok r := hk
  refine ⟨fun he => refuses_of_refuseKey hexec (amend_noEntry (c := ⟨q, tag, 36, s.link.level q⟩) hk' he), fun e he =>
    ⟨fun hkind hwide => ?_, fun hfit => ⟨fun hp => ?_, fun hp => ⟨fun t ht => ?_, fun ht hpool => ?_, fun frame rest ht hpool => ?_⟩⟩⟩⟩
  · exact refuses_of_refuseKey hexec (amend_wide (c := ⟨q, tag, 36, s.link.level q⟩) hk' he hkind hwide)
  · exact refuses_of_refuseKey hexec (amend_pinned (c := ⟨q, tag, 36, s.link.level q⟩) hk' he hfit hp)
  · exact refuses_of_refuseKey hexec (amend_busy (c := ⟨q, tag, 36, s.link.level q⟩) hk' he hfit hp ht)
  · exact refuses_of_refuseKey hexec (amend_noFrame (c := ⟨q, tag, 36, s.link.level q⟩) hk' he hfit hp ht hpool)
  · exact answers_of_exec hexec (amend_opens (c := ⟨q, tag, 36, s.link.level q⟩) hk' he hfit hp ht hpool)

end Sys2Proof

/-! The RETIRE commands (R182 to R184). -/

namespace Sys2Proof.Machine

section table

variable {s : State}

theorem returnFrames_eq : ∀ (frames : List Nat) (s : State), s.returnFrames frames = { s with pool := frames.reverse ++ s.pool }
  | [], _ => rfl
  | f :: rest, s => by
    rw [State.returnFrames, returnFrames_eq rest, List.reverse_cons, List.append_assoc]
    rfl

theorem removeEntries_eq (gone : List Entry) : s.removeEntries gone
    = { s with entries := s.entries.filter fun e => !gone.any fun g => g.key == e.key
               pool := (gone.flatMap fun e => e.candidates.map Candidate.frame).reverse ++ s.pool } :=
  returnFrames_eq _ _

theorem removeEntries_one (e : Entry) : s.removeEntries [e]
    = { s with entries := s.entries.filter fun x => x.key != e.key, pool := (e.candidates.map Candidate.frame).reverse ++ s.pool } := by
  have hentries : s.entries.filter (fun x => !(([e] : List Entry).any fun g => g.key == x.key)) = s.entries.filter fun x => x.key != e.key := by
    refine List.filter_congr fun x _ => ?_
    rw [List.any_cons, List.any_nil, Bool.or_false, Bool.beq_comm]
    rfl
  rw [removeEntries_eq, hentries, List.flatMap_singleton]

/-- In a sound table the entries that pass a test leave, and no others. -/
theorem removeEntries_filter (hs : s.TableSound) (gone : Entry → Bool) : s.removeEntries (s.entries.filter gone)
    = { s with entries := s.entries.filter fun e => !gone e
               pool := ((s.entries.filter gone).flatMap fun e => e.candidates.map Candidate.frame).reverse ++ s.pool } := by
  have hentries : s.entries.filter (fun x => !(s.entries.filter gone).any fun g => g.key == x.key) = s.entries.filter fun e => !gone e := by
    refine List.filter_congr fun x hx => congrArg Bool.not ?_
    rw [Bool.eq_iff_iff, List.any_eq_true]
    constructor
    · rintro ⟨g, hg, hkey⟩
      obtain ⟨hmem, hgone⟩ := List.mem_filter.1 hg
      rwa [← unique_key hs.oneKey hmem hx (beq_iff_eq.1 hkey)]
    · exact fun hgone => ⟨x, List.mem_filter.2 ⟨hx, hgone⟩, beq_self_eq_true _⟩
  rw [removeEntries_eq, hentries]

end table

/-! ## RETIRE -/

section commands

variable {s : State} {c : Ctx} {k : KeyField} {r : Resolved} {e : Entry}

theorem retire_noEntry (h : s.chainKey c.level k = .ok r) (he : s.entry r.key = none) : s.retire c k = s.refuseKey c r .noEntry [] := by
  rw [State.retire]
  simp only [h, he]

theorem retire_active (h : s.chainKey c.level k = .ok r) (he : s.entry r.key = some e) {j : Job} (hj : s.jobAt r = some j) :
    s.retire c k = s.refuseKey c r .bandActive [numberWord j.id] := by
  rw [State.retire]
  simp only [h, he, hj]

theorem retire_pinned (h : s.chainKey c.level k = .ok r) (he : s.entry r.key = some e) (hj : s.jobAt r = none) (hp : e.pinned = true) :
    s.retire c k = s.refuseKey c r .pinned [] := by
  rw [State.retire]
  simp only [h, he, hj, hp, if_true]

theorem retire_accepted (h : s.chainKey c.level k = .ok r) (he : s.entry r.key = some e) (hj : s.jobAt r = none) (hp : e.pinned = false) :
    s.retire c k = (s.removeEntries [e]).answer c .done [r.keyReport, numberWord e.state.number, numberWord e.candidates.length] := by
  rw [State.retire]
  simp only [h, he, hj, hp, Bool.false_eq_true, if_false]

/-! ## RETIRE BAND and RETIRE VOLUME -/

/-- The entries a RETIRE BAND or RETIRE VOLUME judges are taken together: those in scope and not pinned leave, and the answer counts. -/
theorem retireWhere_eq (hs : s.TableSound) (name : Word) {p gone : Entry → Bool} {scope : BitVec 8}
    (hgone : ∀ e, gone e = true ↔ p e = true ∧ (scope = 1 ∨ e.state.closed = true) ∧ e.pinned = false) :
    s.retireWhere c name p scope
      = ({ s with
          entries := s.entries.filter fun e => !gone e
          pool := ((s.entries.filter gone).flatMap fun e => e.candidates.map Candidate.frame).reverse ++ s.pool } : State).answer c .done
            [name, numberWord (s.entries.countP gone),
             numberWord (s.entries.countP fun e => p e && (scope == 1 || e.state.closed) && e.pinned),
             numberWord (s.entries.countP fun e => p e && !(scope == 1 || e.state.closed)),
             numberWord ((s.entries.filter gone).map fun e => e.candidates.length).sum] := by
  have hfilter : (s.entries.filter p).filter (fun e => e.inScope scope && !e.pinned) = s.entries.filter gone := by
    rw [List.filter_filter]
    refine List.filter_congr fun e _ => ?_
    rw [Bool.eq_iff_iff, hgone, Bool.and_eq_true, Bool.and_eq_true, Entry.inScope, Bool.or_eq_true, beq_iff_eq, Bool.not_eq_true']
    tauto
  have hpinned : (s.entries.filter p).countP (fun e => e.inScope scope && e.pinned)
      = s.entries.countP fun e => p e && (scope == 1 || e.state.closed) && e.pinned := by
    rw [List.countP_filter]
    refine List.countP_congr fun e _ => ?_
    rw [Entry.inScope, Bool.and_comm, ← Bool.and_assoc]
  have houtside : (s.entries.filter p).countP (fun e => !e.inScope scope) = s.entries.countP fun e => p e && !(scope == 1 || e.state.closed) := by
    rw [List.countP_filter]
    refine List.countP_congr fun e _ => ?_
    rw [Entry.inScope, Bool.and_comm]
  rw [State.retireWhere]
  simp only [hfilter, hpinned, houtside, removeEntries_filter hs, List.countP_eq_length_filter]

theorem retireBand_active {b : BandField} {scope : BitVec 8} (h : s.chainBand c.level b = .ok r) {j : Job}
    (hj : s.bandJob r.handle r.cylinder r.head = some j) : s.retireBand c b scope = s.refuse c .bandActive [r.bandReport, numberWord j.id] := by
  rw [State.retireBand]
  simp only [h, State.jobAt, hj]

theorem retireBand_accepted {b : BandField} {scope : BitVec 8} (h : s.chainBand c.level b = .ok r)
    (hj : s.bandJob r.handle r.cylinder r.head = none) {p : Entry → Bool}
    (hp : ∀ e, p e = true ↔ e.key.handle = r.handle ∧ e.key.cylinder = r.cylinder ∧ e.key.head = r.head) :
    s.retireBand c b scope = s.retireWhere c r.bandReport p scope := by
  have hp' : p = fun e => e.key.handle == r.handle && e.key.cylinder == r.cylinder && e.key.head == r.head := by
    funext e
    rw [Bool.eq_iff_iff, hp]
    simp [and_assoc]
  rw [State.retireBand]
  simp only [h, State.jobAt, hj, hp']

theorem retireVolume_active {handle : BitVec 6} {scope : BitVec 8} (h : s.chainVolume c.level handle = .ok r) {j : Job}
    (hj : (s.jobs.find? fun j => j.handle == r.handle) = some j) :
    s.retireVolume c handle scope = s.refuse c .bandActive [r.volumeReport, numberWord j.id] := by
  rw [State.retireVolume]
  simp only [h, hj]

theorem retireVolume_accepted {handle : BitVec 6} {scope : BitVec 8} (h : s.chainVolume c.level handle = .ok r)
    (hj : (s.jobs.find? fun j => j.handle == r.handle) = none) {p : Entry → Bool}
    (hp : ∀ e, p e = true ↔ e.key.handle = r.handle ∧ ∀ v, r.via = some v → v.offset ≤ e.key.cylinder ∧ e.key.cylinder < v.offset + v.limit) :
    s.retireVolume c handle scope = s.retireWhere c r.volumeReport p scope := by
  have hp' : p = fun e => e.key.handle == r.handle && r.covers e.key.cylinder := by
    funext e
    rw [Bool.eq_iff_iff, hp, Bool.and_eq_true, covers_iff, beq_iff_eq]
  rw [State.retireVolume]
  simp only [h, hj, hp']

theorem volumeReport_eq {named : Word} (hnone : r.via = none → named = keyWord r.handle 0 0 0)
    (hsome : ∀ v, r.via = some v → named = keyWord v.handle 0 0 0) : r.volumeReport = named := by
  unfold Resolved.volumeReport
  cases hv : r.via with
  | none => exact (hnone hv).symm
  | some v => exact (hsome v hv).symm

end commands

end Sys2Proof.Machine

namespace Sys2Proof

open Machine

/-- Settles O34: RETIRE takes its entry; the other two take the entries they judge. -/
theorem retireCommands : Obligations.RetireCommands := by
  intro s q tag hs htable
  refine ⟨fun k r hk => ?one, fun i code scope r p active named hscope hi => ?many⟩
  case one =>
    have hexec : exec (.retire q tag k) s = .next ((s.taken q).retire ⟨q, tag, 37, s.link.level q⟩ k) :=
      exec_performs (c := .retire k) hs rfl rfl (.inl rfl)
    have hk' : (s.taken q).chainKey (s.link.level q) k = .ok r := hk
    refine ⟨fun he => ?_, fun e he => ⟨fun j hj => ?_, fun hj => ⟨fun hp => ?_, fun hp => ?_⟩⟩⟩
    · exact refuses_of_refuseKey hexec (retire_noEntry (c := ⟨q, tag, 37, s.link.level q⟩) hk' he)
    · exact refuses_of_refuseKey hexec (retire_active (c := ⟨q, tag, 37, s.link.level q⟩) hk' he hj)
    · exact refuses_of_refuseKey hexec (retire_pinned (c := ⟨q, tag, 37, s.link.level q⟩) hk' he hj hp)
    · have hretire := retire_accepted (c := ⟨q, tag, 37, s.link.level q⟩) hk' he hj hp
      rw [removeEntries_one] at hretire
      exact answers_of_exec hexec hretire
  case many =>
    have htable' : (s.taken q).TableSound := ⟨htable.count, htable.order, htable.candidates⟩
    rcases hi with ⟨b, rfl, hb, rfl, rfl, rfl, hp⟩ | ⟨h, rfl, hv, rfl, rfl, hnone, hsome, hp⟩
    · have hexec : exec (.retireBand q tag b scope) s = .next ((s.taken q).retireBand ⟨q, tag, 38, s.link.level q⟩ b scope) :=
        exec_performs (c := .retireBand b scope) hs rfl (decide_eq_false (by omega)) (.inl rfl)
      have hb' : (s.taken q).chainBand (s.link.level q) b = .ok r := hb
      refine ⟨fun j hj => ?_, fun hj gone hgone => ?_⟩
      · exact refuses_of_exec hexec (retireBand_active (c := ⟨q, tag, 38, s.link.level q⟩) hb' hj)
      · exact answers_of_exec hexec ((retireBand_accepted (c := ⟨q, tag, 38, s.link.level q⟩) hb' hj hp).trans (retireWhere_eq htable' _ hgone))
    · have hexec : exec (.retireVolume q tag h scope) s = .next ((s.taken q).retireVolume ⟨q, tag, 39, s.link.level q⟩ h scope) :=
        exec_performs (c := .retireVolume h scope) hs rfl (decide_eq_false (by omega)) (.inl rfl)
      have hv' : (s.taken q).chainVolume (s.link.level q) h = .ok r := hv
      rw [← volumeReport_eq hnone hsome]
      refine ⟨fun j hj => ?_, fun hj gone hgone => ?_⟩
      · exact refuses_of_exec hexec (retireVolume_active (c := ⟨q, tag, 39, s.link.level q⟩) hv' hj)
      · exact answers_of_exec hexec ((retireVolume_accepted (c := ⟨q, tag, 39, s.link.level q⟩) hv' hj hp).trans (retireWhere_eq htable' _ hgone))

end Sys2Proof

/-! SYNTHESIZE, ABORT TRANSFER, SET TRANSFER LEVEL and CLEAR FLAGS (R142 to R144, R153, R167, R188, R197). -/

namespace Sys2Proof.Machine

/-! ## SYNTHESIZE -/

theorem isCommand_iff (r : SynthRequest) : r.source.isCommand = true ↔ ∃ q tag via, r.source = .command q tag via := by
  cases r.source <;> simp [SynthSource.isCommand]

theorem checkKey_ok {r r' : Resolved} (h : r.checkKey = .ok r') : r = r' := by
  unfold Resolved.checkKey at h
  split at h
  · cases h
  · rename_i r'' hband
    obtain rfl := checkBand_ok hband
    split at h <;> cases h
    rfl

/-- A passed chain on a key leads to a MEDIUM entry. -/
theorem chainKey_medium {s : State} {level : Nat} {k : KeyField} {r : Resolved} (h : s.chainKey level k = .ok r) :
    s.medium r.handle = some r.medium := by
  unfold State.chainKey at h
  split at h
  · cases h
  · rename_i r' hr
    obtain rfl := checkKey_ok h
    exact chainResolve_ok hr

theorem chainKey_kindOf {s : State} {level : Nat} {k : KeyField} {r : Resolved} (h : s.chainKey level k = .ok r) :
    s.kindOf r.handle = r.medium.kind := by
  rw [State.kindOf, chainKey_medium h]

theorem synthInputs_taken (s : State) (q : Queue) (kind : PortKind) (size : Nat) : ∀ (l : List Candidate) (i : Nat),
    (s.taken q).synthInputs kind size l i = s.synthInputs kind size l i
  | [], _ => rfl
  | c :: rest, i => by
    unfold State.synthInputs
    rw [synthInputs_taken s q kind size rest]
    rfl

theorem synthInputs_setPool (s : State) (pool : List Nat) (kind : PortKind) (size : Nat) : ∀ (l : List Candidate) (i : Nat),
    (s.setPool pool).synthInputs kind size l i = s.synthInputs kind size l i
  | [], _ => rfl
  | c :: rest, i => by
    unfold State.synthInputs
    rw [synthInputs_setPool s pool kind size rest]
    rfl

section synthesize

variable {s : State} {c : Ctx} {k : KeyField} {r : Resolved} {e : Entry}

theorem synthesize_noEntry (h : s.chainKey c.level k = .ok r) (he : s.entry r.key = none) : s.synthesize c k = s.refuse c .noEntry [] := by
  rw [State.synthesize]
  simp only [h, he]

theorem synthesize_active (h : s.chainKey c.level k = .ok r) (he : s.entry r.key = some e) {j : Job}
    (hj : s.bandJob r.handle r.cylinder r.head = some j) : s.synthesize c k = s.refuse c .bandActive [numberWord j.id] := by
  rw [State.synthesize]
  simp only [h, he, State.jobAt, hj]

/-- A SYNTHESIZE at an entry whose band has no job goes on to its own tests. -/
theorem synthesize_entry (h : s.chainKey c.level k = .ok r) (he : s.entry r.key = some e) (hj : s.bandJob r.handle r.cylinder r.head = none) :
    s.synthesize c k =
      if e.pinned then s.refuse c .pinned []
      else if !(e.state == .weak || e.state == .exhausted) then s.refuse c .state [numberWord e.state.number]
      else if e.readCount < 3 then s.refuse c .tooFew [numberWord e.readCount]
      else if 4 ≤ s.synth.commandRequests then s.refuse c .synthBusy []
      else match s.synthArrive ⟨r.key, .command c.queue c.tag r.via⟩ with
        | .inl s => s
        | .inr (code, body) => s.answerSynth (synthCtx c.queue c.tag) r.key r.via (.atStart code body) := by
  rw [State.synthesize]
  simp only [h, he, State.jobAt, hj] <;> rfl

theorem weak_or_exhausted_iff (st : EntryState) : (st == .weak || st == .exhausted) = true ↔ st ∈ [.weak, .exhausted] := by
  simp

theorem synthesize_pinned (h : s.chainKey c.level k = .ok r) (he : s.entry r.key = some e) (hj : s.bandJob r.handle r.cylinder r.head = none)
    (hp : e.pinned = true) : s.synthesize c k = s.refuse c .pinned [] := by
  rw [synthesize_entry h he hj, if_pos hp]

theorem synthesize_state (h : s.chainKey c.level k = .ok r) (he : s.entry r.key = some e) (hj : s.bandJob r.handle r.cylinder r.head = none)
    (hp : e.pinned = false) (hst : e.state ∉ [.weak, .exhausted]) :
    s.synthesize c k = s.refuse c .state [numberWord e.state.number] := by
  have hno : (!(e.state == .weak || e.state == .exhausted)) = true := by
    rw [Bool.not_eq_true', ← Bool.not_eq_true, weak_or_exhausted_iff]
    exact hst
  rw [synthesize_entry h he hj, if_neg (by simp [hp]), if_pos hno]

/-- At an entry that may be synthesized the tests that remain are those of its readings and of the unit. -/
theorem synthesize_open (h : s.chainKey c.level k = .ok r) (he : s.entry r.key = some e) (hj : s.bandJob r.handle r.cylinder r.head = none)
    (hp : e.pinned = false) (hst : e.state ∈ [.weak, .exhausted]) :
    s.synthesize c k =
      if e.readCount < 3 then s.refuse c .tooFew [numberWord e.readCount]
      else if 4 ≤ s.synth.commandRequests then s.refuse c .synthBusy []
      else match s.synthArrive ⟨r.key, .command c.queue c.tag r.via⟩ with
        | .inl s => s
        | .inr (code, body) => s.answerSynth (synthCtx c.queue c.tag) r.key r.via (.atStart code body) := by
  rw [synthesize_entry h he hj, if_neg (by simp [hp]), if_neg (by rw [(weak_or_exhausted_iff _).2 hst]; decide)]

/-- At an entry that passes a command's tests, only an empty pool refuses its start (R144). -/
theorem judgeStart_command (q : Queue) (tag : BitVec 8) (via : Option Via) {key : Key} (he : s.entry key = some e)
    (hj : s.bandJob key.handle key.cylinder key.head = none) (hp : e.pinned = false) (hst : e.state ∈ [.weak, .exhausted]) (hr : 3 ≤ e.readCount) :
    s.judgeStart ⟨key, .command q tag via⟩ =
      match s.claimFrame with
      | none => .inr (.noFrame, [])
      | some (f, s) => .inl (s.setSynth { s.synth with
          inHand := some ⟨key, .command q tag via⟩, workFrame := some f
          inputs := some (s.synthInputs (s.kindOf key.handle) e.size e.candidates 0)
          kind := s.kindOf key.handle, contested := 0, ties := 0 }) := by
  have hopen : (!(e.state == .weak || (true && e.state == .exhausted))) = false := by
    rw [Bool.true_and, (weak_or_exhausted_iff _).2 hst]
    rfl
  rw [State.judgeStart]
  simp only [he, SynthSource.isCommand, if_true, hj, hp, hopen, Bool.false_eq_true, if_false]
  exact if_neg (Nat.not_lt.2 hr)

end synthesize

/-! ## ABORT TRANSFER -/

section link

variable {s : State} {c : Ctx}

theorem abortTransfer_none (h : s.transfer = none) : s.abortTransfer c = s.refuse c .noTransfer [] := by
  rw [State.abortTransfer, h]

theorem abortTransfer_level {t : Transfer} (h : s.transfer = some t) (hl : t.level < c.level) : s.abortTransfer c = s.refuse c .level [] := by
  rw [State.abortTransfer, h]
  exact if_pos hl

theorem abortTransfer_accepted {t : Transfer} (h : s.transfer = some t) (hl : c.level ≤ t.level) :
    s.abortTransfer c = (s.endTransferEarly t .aborted).answer c .done
      [numberWord t.direction.number, t.key.word, numberWord t.total, numberWord t.moved] := by
  rw [State.abortTransfer, h]
  exact if_neg (Nat.not_lt.2 hl)

theorem endTransferEarly_outbound {t : Transfer} (h : t.direction = .outbound) (o : ClosingOutcome) : s.endTransferEarly t o
    = { s with entries := s.entries.map fun e => if e.key == t.key then { e with pinned := false } else e
               transfer := none, closing := some ⟨.outbound, t.key, t.queue, t.tag, t.total, t.moved, o⟩ } := by
  rw [State.endTransferEarly, h]
  dsimp only
  rw [State.closeTransfer, h]
  rfl

theorem endTransferEarly_inbound {t : Transfer} (h : t.direction = .inbound) (o : ClosingOutcome) : s.endTransferEarly t o
    = { s with pool := t.frame :: s.pool
               transfer := none, closing := some ⟨.inbound, t.key, t.queue, t.tag, t.total, t.moved, o⟩ } := by
  rw [State.endTransferEarly, h]
  dsimp only
  rw [State.closeTransfer, h]
  rfl

/-! ## CLEAR FLAGS -/

theorem and_not_eq (a b : Bool) : (a && !b) = if b then false else a := by cases a <;> cases b <;> rfl

theorem clearFlags_eq (l : Link) (flags : BitVec 6) : l.clearFlags flags = { l with
    overflow := if flags.getLsbD 0 then false else l.overflow
    portMisuse := if flags.getLsbD 1 then false else l.portMisuse
    mediaChanged :=
      { p0 := if flags.getLsbD 2 then false else l.mediaChanged.p0
        p1 := if flags.getLsbD 3 then false else l.mediaChanged.p1
        p2 := if flags.getLsbD 4 then false else l.mediaChanged.p2
        p3 := if flags.getLsbD 5 then false else l.mediaChanged.p3 } } := by
  unfold Link.clearFlags
  simp only [and_not_eq]

end link

end Sys2Proof.Machine

namespace Sys2Proof

open Machine

/-- Settles O35: the tests of SYNTHESIZE in their order, then the unit as it stands. -/
theorem synthesizeStarts : Obligations.SynthesizeStarts := by
  refine ⟨fun e => ?readings, fun u command hcommand => ?requests, fun s q tag k r hs hk => ?command⟩
  case readings => exact List.countP_congr fun c _ => by simp
  case requests =>
    have hsame : command = fun r => r.source.isCommand := by
      funext r
      rw [Bool.eq_iff_iff, hcommand, isCommand_iff]
    rw [Synth.commandRequests, List.countP_append, hsame]
  case command =>
    have hexec : exec (.synthesize q tag k) s = .next ((s.taken q).synthesize ⟨q, tag, 40, s.link.level q⟩ k) :=
      exec_performs (c := .synthesize k) hs rfl rfl (.inl rfl)
    have hk' : (s.taken q).chainKey (s.link.level q) k = .ok r := hk
    refine ⟨fun he => refuses_of_exec hexec (synthesize_noEntry (c := ⟨q, tag, 40, s.link.level q⟩) hk' he), fun e he =>
      ⟨fun j hj => ?_, fun hj => ⟨fun hp => ?_, fun hp hst => ?_, fun hp hst => ?_⟩⟩⟩
    · exact refuses_of_exec hexec (synthesize_active (c := ⟨q, tag, 40, s.link.level q⟩) hk' he hj)
    · exact refuses_of_exec hexec (synthesize_pinned (c := ⟨q, tag, 40, s.link.level q⟩) hk' he hj hp)
    · exact refuses_of_exec hexec (synthesize_state (c := ⟨q, tag, 40, s.link.level q⟩) hk' he hj hp hst)
    have hopen := synthesize_open (s := s.taken q) (c := ⟨q, tag, 40, s.link.level q⟩) hk' he hj hp hst
    rw [State.taken_synth] at hopen
    refine ⟨fun hr => ?few, fun hr => ⟨fun hn => ?busy, fun hn hwait => ?waits, fun hn hinputs hwait => ?starts⟩⟩
    case few =>
      rw [if_pos hr] at hopen
      exact refuses_of_exec hexec hopen
    all_goals rw [if_neg (Nat.not_lt.2 hr)] at hopen
    case busy =>
      rw [if_pos hn] at hopen
      exact refuses_of_exec hexec hopen
    all_goals rw [if_neg (Nat.not_le.2 hn)] at hopen
    case waits =>
      rw [synthArrive_busy (u := s.taken q) _ hwait] at hopen
      rw [hexec, hopen]
      rfl
    case starts =>
      rw [synthArrive_idle (u := s.taken q) _ hinputs hwait, judgeStart_command q tag r.via (s := s.taken q) he hj hp hst hr] at hopen
      refine ⟨fun hpool => ?_, fun frame rest hpool => ?_⟩
      · rw [show (s.taken q).claimFrame = none by rw [State.claimFrame, State.taken_pool, hpool]] at hopen
        exact refuses_of_exec hexec hopen
      · rw [show (s.taken q).claimFrame = some (frame, (s.setPool rest).taken q) by rw [State.claimFrame, State.taken_pool, hpool]; rfl] at hopen
        have hinputs : ((s.setPool rest).taken q).synthInputs ((s.setPool rest).kindOf r.handle) e.size e.candidates 0
            = s.synthInputs r.medium.kind e.size e.candidates 0 := by
          rw [synthInputs_taken, show (s.setPool rest).kindOf r.handle = s.kindOf r.handle from rfl, chainKey_kindOf hk]
          exact synthInputs_setPool ..
        rw [hexec, hopen, ← hinputs, ← chainKey_kindOf hk]
        rfl

/-- Settles O36: the tests of ABORT TRANSFER and the end of either direction; the level set. -/
theorem abortAndSetLevel : Obligations.AbortAndSetLevel := by
  intro s q tag hs
  have hexec : exec (.abortTransfer q tag) s = .next ((s.taken q).abortTransfer ⟨q, tag, 44, s.link.level q⟩) :=
    exec_performs (c := .abortTransfer) hs rfl rfl (.inl rfl)
  refine ⟨fun h => refuses_of_exec hexec (abortTransfer_none h), fun t ht => ⟨fun hl => ?_, fun hl answer hanswer => ?_⟩, fun level hlevel => ?_⟩
  · exact refuses_of_exec hexec (abortTransfer_level (c := ⟨q, tag, 44, s.link.level q⟩) ht hl)
  · subst hanswer
    have habort := abortTransfer_accepted (s := s.taken q) (c := ⟨q, tag, 44, s.link.level q⟩) ht hl
    refine ⟨fun hd => ?_, fun hd => ?_⟩
    · rw [endTransferEarly_outbound hd] at habort
      exact answers_of_exec hexec habort
    · rw [endTransferEarly_inbound hd] at habort
      exact answers_of_exec hexec habort
  · have hset : exec (.setTransferLevel .console tag level) s
        = .next ((s.taken .console).setTransferLevel ⟨.console, tag, 48, s.link.level .console⟩ level) :=
      exec_performs (c := .setTransferLevel level) hs rfl (decide_eq_false (by omega)) (.inr rfl)
    exact answers_of_exec (level := s.link.level .console) hset rfl

/-- Settles O38: each flag by its bit of the command. -/
theorem clearFlagsClears : Obligations.ClearFlagsClears := by
  intro s q tag flags hs
  have hexec : exec (.clearFlags q tag flags) s = .next ((s.taken q).clearFlags ⟨q, tag, 50, s.link.level q⟩ flags) :=
    exec_performs (c := .clearFlags flags) hs rfl rfl (.inl rfl)
  refine ⟨fun h => refuses_of_exec hexec (if_pos h), fun h values hvalues => ?_⟩
  subst hvalues
  refine answers_of_exec (level := s.link.level q) hexec ((if_neg h).trans ?_)
  rw [clearFlags_eq]
  rfl

end Sys2Proof

/-! STATUS (R198, R204): the layouts of its words, and each part's answer. -/

namespace Sys2Proof.Machine

open Laws

/-! ## Layouts -/

theorem jobCounts_laidOut (s : State) : laidOut s.jobCounts
    [(31, 28, s.jobsIn .queued), (27, 24, s.jobsIn .positioning), (23, 20, s.jobsIn .awaitingChannel), (19, 16, s.jobsIn .streaming),
     (15, 12, s.jobsIn .reseating), (11, 8, s.jobsIn .retensionWait), (7, 4, s.jobsIn .closing), (3, 0, 0)] := by
  unfold State.jobCounts
  simp only [laidOut_cons, toNat_joined, BitVec.toNat_ofNat]
  refine ⟨?_, ?_, ?_, ?_, ?_, ?_, ?_, ?_, laidOut_nil _⟩
  all_goals omega

/-- The first word of a job's body. -/
def Job.firstWord (j : Job) : Word :=
  bits 8 j.id ++ bits 3 j.state.number ++ bits 1 j.phase.number ++ bits 2 j.drive.val ++ bits 4 j.passesRun
    ++ bits 2 j.consecutiveFaults ++ bits 5 j.holdRemaining ++ bits 3 j.tolerance ++ 0#4

theorem idxOf_jobState (st : JobState) :
    [JobState.queued, .positioning, .awaitingChannel, .streaming, .reseating, .retensionWait, .closing].idxOf st = st.number := by
  cases st <;> rfl

theorem idxOf_phase (p : StreamPhase) : [StreamPhase.capturing, .draining].idxOf p = p.number := by cases p <;> rfl

theorem firstWord_laidOut (j : Job) : laidOut j.firstWord
    [(31, 24, j.id), (23, 21, j.state.number), (20, 20, j.phase.number), (19, 18, j.drive.val), (17, 14, j.passesRun),
     (13, 12, j.consecutiveFaults), (11, 7, j.holdRemaining), (6, 4, j.tolerance), (3, 0, 0)] := by
  unfold Job.firstWord
  simp only [laidOut_cons, toNat_joined, BitVec.toNat_ofNat]
  refine ⟨?_, ?_, ?_, ?_, ?_, ?_, ?_, ?_, ?_, laidOut_nil _⟩
  all_goals omega

theorem joinedFours_laidOut (a b c d : Nat) :
    laidOut (bits 8 a ++ bits 8 b ++ bits 8 c ++ bits 8 d) [(31, 24, a), (23, 16, b), (15, 8, c), (7, 0, d)] := by
  simp only [laidOut_cons, toNat_joined, BitVec.toNat_ofNat]
  refine ⟨?_, ?_, ?_, ?_, laidOut_nil _⟩
  all_goals omega

theorem fourToWord_laidOut (l : List Nat) : laidOut (fourToWord l)
    [(31, 24, (l[0]?).getD 255), (23, 16, (l[1]?).getD 255), (15, 8, (l[2]?).getD 255), (7, 0, (l[3]?).getD 255)] := by
  match l with
  | [] | [a] | [a, b] | [a, b, c] | a :: b :: c :: d :: _ => exact joinedFours_laidOut _ _ _ _

/-- The packed words hold the list four by four. -/
theorem packFours_laidOut (l : List Nat) : (packFours l).length = (l.length + 3) / 4
    ∧ ∀ i w, (packFours l)[i]? = some w → laidOut w
        [(31, 24, (l[4 * i]?).getD 255), (23, 16, (l[4 * i + 1]?).getD 255), (15, 8, (l[4 * i + 2]?).getD 255),
         (7, 0, (l[4 * i + 3]?).getD 255)] := by
  match l with
  | [] => exact ⟨rfl, fun i w h => by simp [packFours] at h⟩
  | [a] | [a, b] | [a, b, c] =>
    refine ⟨by simp [packFours], fun i w h => ?_⟩
    cases i with
    | zero =>
      obtain rfl : fourToWord _ = w := by simpa [packFours] using h
      exact fourToWord_laidOut _
    | succ i => simp [packFours] at h
  | a :: b :: c :: d :: rest =>
    obtain ⟨hlength, hwords⟩ := packFours_laidOut rest
    refine ⟨?_, fun i w h => ?_⟩
    · rw [packFours, List.length_cons, hlength]
      simp only [List.length_cons]
      omega
    · cases i with
      | zero =>
        obtain rfl : fourToWord [a, b, c, d] = w := by simpa [packFours] using h
        exact fourToWord_laidOut [a, b, c, d]
      | succ i =>
        have hword := hwords i w (by simpa [packFours] using h)
        simpa [show 4 * (i + 1) = 4 * i + 4 by omega] using hword

/-! ## The bodies -/

theorem portBody_band (b : Option BandAddress) :
    (match b with
      | some b => keyWord absentHandle b.cylinder b.head 0
      | none => absentWord) = (b.map fun b => keyWord 63 b.cylinder b.head 0).getD absentWord := by
  cases b <;> rfl

theorem portBody_eq (p : Port) : p.body
    = [numberWord p.kind.number, numberWord p.state.number, (p.band.map fun b => keyWord 63 b.cylinder b.head 0).getD absentWord,
       optionWord p.headCylinder, if p.ready then 1 else 0, numberWord p.passCount, numberWord (faultNumber p.fault),
       if p.parkOnArrival then 1 else 0] := by
  unfold Port.body
  cases p.band <;> rfl

theorem directionNumber_ite (d : Direction) : d.number = if d = .outbound then 1 else 2 := by cases d <;> rfl

theorem queueNumber_ite (q : Queue) : queueNumber q = if q = .console then 0 else 1 := by cases q <;> rfl

theorem stateNumber_word (u : Synth) : numberWord u.stateNumber = if u.inputs = none then 0 else 1 := by
  unfold Synth.stateNumber Synth.idle
  cases u.inputs <;> rfl

theorem inboundFrames_eq (s : State) : s.inboundFrames = (inboundOf s.transfer).length := by
  unfold State.inboundFrames inboundOf
  cases s.transfer with
  | none => rfl
  | some t => cases t with | mk d => cases d <;> rfl

theorem closingBody_eq (direction : Direction) (key : Key) (q : Queue) (tag : BitVec 8) (total moved : Nat) (outcome : ClosingOutcome) :
    closingBody (some ⟨direction, key, q, tag, total, moved, outcome⟩)
      = [numberWord (if direction = .outbound then 1 else 2), key.word, numberWord tag.toNat, numberWord (if q = .console then 0 else 1),
         numberWord total, numberWord moved] ++ outcome.body := by
  rw [← directionNumber_ite, ← queueNumber_ite]
  rfl

end Sys2Proof.Machine

namespace Sys2Proof

open Machine

/-- Settles O37: the layouts of the packed words, and the answer of each part. -/
theorem statusAnswers : Obligations.StatusAnswers := by
  refine ⟨fun s count hcount => ?counts, fun j => ?job, fourToWord_laidOut, ⟨rfl, fun t => ?transfer⟩,
    ⟨rfl, fun direction key q tag total moved outcome ends hends => ?closing⟩, ⟨rfl, rfl, rfl, rfl⟩, fun s q tag part number hs => ?answers⟩
  case counts =>
    have hcount' : ∀ st, count st = s.jobsIn st := hcount
    simp only [hcount']
    exact jobCounts_laidOut s
  case job =>
    obtain ⟨hlength, hwords⟩ := packFours_laidOut j.layout
    refine ⟨j.firstWord, packFours j.layout, rfl, ?_, hlength, hwords⟩
    rw [idxOf_jobState, idxOf_phase]
    exact firstWord_laidOut j
  case transfer =>
    rw [← directionNumber_ite]
    rfl
  case closing =>
    have hbody : outcome.body = ends := by
      rcases hends with ⟨rfl, rfl⟩ | ⟨rfl, rfl⟩ | ⟨rfl, rfl⟩ | ⟨k, rfl, rfl⟩ | ⟨k, rfl, rfl⟩ | ⟨gone, k, rfl, rfl⟩ | ⟨rfl, rfl⟩ | ⟨rfl, rfl⟩
      all_goals rfl
    rw [closingBody_eq, hbody]
  case answers =>
    have hexec : malformed (.status part number) = false → exec (.status q tag part number) s
        = .next ((s.taken q).status ⟨q, tag, 49, s.link.level q⟩ part number) :=
      fun hm => exec_performs (c := .status part number) hs rfl hm (.inl rfl)
    refine ⟨fun body hbody => ?_, fun hpart hj => ?_⟩
    · rcases hbody with ⟨rfl, rfl⟩ | ⟨rfl, p, hp, rfl⟩ | ⟨rfl, rfl⟩ | ⟨rfl, j, hj, rfl⟩ | ⟨rfl, rfl⟩ | ⟨rfl, rfl⟩
      · rw [← stateNumber_word]
        exact answers_of_exec (hexec rfl) rfl
      · rw [← portBody_eq]
        refine answers_of_exec (level := s.link.level q) (hexec ?_) ?_
        · exact malformed_port hp
        · show (s.taken q).answer _ .done ((s.taken q).port (portOf number)).body = _
          rw [portOf_eq hp]
          rfl
      · exact answers_of_exec (hexec rfl) rfl
      · refine answers_of_exec (level := s.link.level q) (hexec rfl) ?_
        rw [State.status]
        simp only [show (s.taken q).job number.toNat = some j from hj]
        rfl
      · exact answers_of_exec (hexec rfl) rfl
      · rw [← inboundFrames_eq]
        exact answers_of_exec (hexec rfl) rfl
    · subst hpart
      refine refuses_of_exec (level := s.link.level q) (hexec rfl) ?_
      rw [State.status]
      simp only [show (s.taken q).job number.toNat = none from hj]
      rfl

end Sys2Proof

/-! RESTART (R27, R88, R92, R93, R139, R154, R170, R187, R199). -/

namespace Sys2Proof.Machine

/-! ## The port and the channel -/

theorem breakOff_stopTape_eq (p : Port) : p.breakOff.stopTape = { p with
    state := .idle, band := none, motor := false, spinUp := false, atStart := false, settleTimer := none, overtimeTimer := none
    streamWatchdog := none, retensionWatchdog := none, stepTimer := none, motion := .still, parkOnArrival := false
    requests := p.requests ++ (if p.motor then [.motorOff] else []) ++ (if p.kind = .cartridge then [.stopTape] else []) } := by
  rw [brokenOff_eq, Port.stopTape]
  cases hk : p.kind <;> simp [Port.brokenOff, Port.ask, hk]

section port

variable {p : Port}

theorem restart_cutOff (h : p.state = .streaming ∨ (p.state = .positioning ∧ p.motion ≠ .recalibrating)) : p.restart = p.breakOff.stopTape := by
  unfold Port.restart
  rcases h with h | ⟨h, hm⟩
  · rw [h]
  · rw [h]
    exact if_neg (by simpa using hm)

theorem restart_lost (h : p.state = .parking ∨ (p.state = .positioning ∧ p.motion = .recalibrating)) :
    p.restart = { p.breakOff.stopTape with headCylinder := none } := by
  unfold Port.restart
  rcases h with h | ⟨h, hm⟩
  · rw [h]
    rfl
  · rw [h]
    exact if_pos (by simpa using hm)

theorem restart_kept (h : p.state ∈ [.offline, .idle, .onBand, .retensioning, .faulted]) : p.restart = { p with parkOnArrival := false } := by
  unfold Port.restart
  cases hst : p.state
  case positioning | streaming | parking => simp [hst] at h
  all_goals rfl

end port

theorem channelRestart_eq (ch : Channel) :
    ch.restart = { Channel.reset ch.placeOne.frame ch.placeTwo.frame with grants := ch.grants } := by
  unfold Channel.restart Channel.toFree Channel.dropReceipt
  rcases hr : ch.receipt with - | ⟨place, sector, size, position, mark⟩
  · simp [Channel.reset, hr]
  · cases place <;> rfl

theorem restartPorts_port (s : State) (p : Fin 4) : s.restartPorts.port p = (s.port p).restart := by
  fin_cases p <;> rfl

/-! ## The requests and the jobs -/

/-- The refusals of the requests that RESTART abandons. -/
def abandonedRefusals (requests : List SynthRequest) : List (List Word) :=
  requests.filterMap fun r =>
    match r.source with
    | .command q tag _ => some (refusalOf q tag 40 .abandoned [])
    | .close _ => none

theorem abandon_eq : ∀ (l : List SynthRequest) (s : State), s.abandon l = { s with link := { s.link with
    reserved := s.link.reserved - l.countP (fun r => r.source.isCommand)
    responses := s.link.responses ++ abandonedRefusals l } }
  | [], s => by simp [State.abandon, abandonedRefusals]
  | r :: rest, s => by
    obtain ⟨key, source⟩ := r
    cases source with
    | command q tag via =>
      rw [State.abandon]
      dsimp only
      rw [abandon_eq rest]
      simp only [State.refuse, State.post, State.setLink, abandonedRefusals, List.countP_cons, SynthSource.isCommand, if_true,
        List.filterMap_cons, List.append_assoc, List.singleton_append, Nat.sub_sub, Nat.add_comm 1]
      rfl
    | close id =>
      rw [State.abandon]
      dsimp only
      rw [abandon_eq rest]
      simp [abandonedRefusals, SynthSource.isCommand]

theorem endJobs_eq : ∀ (js : List Job) {u : State}, u.OneId → (js.Pairwise fun a b => a.id ≠ b.id) → (∀ j ∈ js, u.job j.id = some j) →
    u.endJobs js = u.allLeft js (.cancelled .restart)
  | [], u, _, _, _ => (allLeft_nil u _).symm
  | j :: rest, u, hu, hjs, hin => by
    obtain ⟨hj, hrest⟩ := List.forall_mem_cons.1 hin
    obtain ⟨hne, hpair⟩ := List.pairwise_cons.1 hjs
    have hdecided : (u.withJob (j.decide (.cancelled .restart))).job j.id = some (j.decide (.cancelled .restart)) := job_withJob hj (decide_id ..)
    have hpost := postNotice_eq (u := u.withJob (j.decide (.cancelled .restart))) (by rwa [decide_id]) (decide_ending j (.cancelled .restart))
    rw [decide_id, left_withJob _ _ rfl] at hpost
    rw [State.endJobs, updateJob_eq_withJob hu hj rfl (decide_id ..), hpost, ← allLeft_cons]
    refine endJobs_eq rest (left_oneId hu ..) hpair fun k hk => ?_
    have hleft : (u.left (j.decide (.cancelled .restart)) (j.ending.getD (.cancelled .restart))).job k.id = u.job k.id := by
      rw [← allLeft_nil (u.left _ _) (.cancelled .restart), allLeft_cons]
      exact allLeft_job fun x hx => by
        obtain rfl := List.mem_singleton.1 hx
        exact hne k hk
    rw [hleft]
    exact hrest k hk

theorem allLeft_all (u : State) (e : Ending) : u.allLeft u.jobs e = { u with
    jobs := []
    link := { u.link with
      reserved := u.link.reserved - u.jobs.length
      responses := u.link.responses ++ u.jobs.map fun j => (j.decide e).notice (j.ending.getD e) (u.bandEntries j) } } := by
  have hnone : u.jobs.filter (fun x => decide (∀ j ∈ u.jobs, j.id ≠ x.id)) = [] :=
    List.filter_eq_nil_iff.2 fun x hx h => (of_decide_eq_true h) x hx rfl
  unfold State.allLeft
  rw [hnone]

/-! ## The whole -/

/-- The state of RESTART when the requests and the jobs have posted, with the command lists empty. -/
def State.workEnded (s : State) : State :=
  { s with
    jobs := []
    link := { s.link.restart with
      reserved := s.link.restart.reserved - s.synth.commandRequests - s.jobs.length
      responses := s.link.restart.responses ++ abandonedRefusals (s.synth.inHand.toList ++ s.synth.wait)
        ++ s.jobs.map fun j => (j.decide (.cancelled .restart)).notice (j.ending.getD (.cancelled .restart)) (s.bandEntries j) } }

theorem restart_workEnded {s : State} (hs : s.OneId) (c : Ctx) :
    s.restart c = (s.workEnded.restartChannels.stopTransfer.stopSynth.restartPorts).answer c .done [] := by
  have hcount : (s.synth.inHand.toList ++ s.synth.wait).countP (fun r => r.source.isCommand) = s.synth.commandRequests := by
    rw [List.countP_append, Synth.commandRequests, Nat.add_comm]
  have hwork : ((s.setLink s.link.restart).abandon (s.synth.inHand.toList ++ s.synth.wait)).endJobs s.jobs = s.workEnded := by
    rw [abandon_eq, hcount]
    refine (endJobs_eq s.jobs ?_ hs fun j hj => ?_).trans (allLeft_all _ _)
    · exact hs
    · exact job_oneId hs hj
  rw [restart_eq, State.endWork]
  exact congrArg (fun u : State => (u.restartChannels.stopTransfer.stopSynth.restartPorts).answer c .done []) hwork

section final

variable {s u : State}

/-- What the end of an open transfer leaves as it stands. -/
structure State.KeptByStop (s t : State) : Prop where
  link : t.link = s.link
  jobs : t.jobs = s.jobs ∧ t.nextJobId = s.nextJobId
  queues : t.waits = s.waits ∧ t.input = s.input
  tables : t.volumes = s.volumes ∧ t.profiles = s.profiles ∧ t.memory = s.memory ∧ t.pending = s.pending
  ports : t.ports = s.ports
  channels : ∀ c, t.channel c = s.channel c
  synth : t.synth = s.synth

theorem stopTransfer_kept (s : State) : s.KeptByStop s.stopTransfer := by
  unfold State.stopTransfer
  cases ht : s.transfer with
  | none => exact ⟨rfl, ⟨rfl, rfl⟩, ⟨rfl, rfl⟩, ⟨rfl, rfl, rfl, rfl⟩, rfl, fun _ => rfl, rfl⟩
  | some x =>
    dsimp only
    cases hd : x.direction with
    | outbound =>
      rw [endTransferEarly_outbound hd]
      exact ⟨rfl, ⟨rfl, rfl⟩, ⟨rfl, rfl⟩, ⟨rfl, rfl, rfl, rfl⟩, rfl, fun c => by cases c <;> rfl, rfl⟩
    | inbound =>
      rw [endTransferEarly_inbound hd]
      exact ⟨rfl, ⟨rfl, rfl⟩, ⟨rfl, rfl⟩, ⟨rfl, rfl, rfl, rfl⟩, rfl, fun c => by cases c <;> rfl, rfl⟩

theorem stopSynth_eq (s : State) : s.stopSynth = { s with
    synth := { s.synth with inHand := none, wait := [], workFrame := none, inputs := none }, pool := s.synth.workFrame.toList ++ s.pool } := by
  unfold State.stopSynth
  cases h : s.synth.workFrame <;> rfl

theorem stopTransfer_none (h : s.transfer = none) : s.stopTransfer = s := by
  rw [State.stopTransfer, h]

theorem stopTransfer_some {x : Transfer} (h : s.transfer = some x) : s.stopTransfer = s.endTransferEarly x .restart := by
  rw [State.stopTransfer, h]

theorem stopTransfer_transfer (s : State) : s.stopTransfer.transfer = none := by
  cases h : s.transfer with
  | none => rw [stopTransfer_none h, h]
  | some x =>
    rw [stopTransfer_some h]
    cases hd : x.direction with
    | outbound => rw [endTransferEarly_outbound hd]
    | inbound => rw [endTransferEarly_inbound hd]

end final

section whole

variable {s : State} {l : Link} {tag : BitVec 8} {level : Nat}

/-- The link port after RESTART, by the place its own answer has reserved. -/
theorem restart_link (hs : s.OneId) (hl : l.restart = { s.link.restart with reserved := s.link.reserved + 1 }) :
    ((s.setLink l).restart ⟨.console, tag, 51, level⟩).link = { s.link.restart with
      reserved := s.link.reserved - s.jobs.length - s.synth.commandRequests
      responses := s.link.responses ++ abandonedRefusals (s.synth.inHand.toList ++ s.synth.wait)
        ++ s.jobs.map (fun j => (j.decide (.cancelled .restart)).notice (j.ending.getD (.cancelled .restart)) (s.bandEntries j))
        ++ [answerOf .console tag 51 .done []] } := by
  have hended : (s.setLink l).workEnded.link = { s.link.restart with
      reserved := s.link.reserved + 1 - s.synth.commandRequests - s.jobs.length
      responses := s.link.responses ++ abandonedRefusals (s.synth.inHand.toList ++ s.synth.wait)
        ++ s.jobs.map fun j => (j.decide (.cancelled .restart)).notice (j.ending.getD (.cancelled .restart)) (s.bandEntries j) } := by
    rw [State.workEnded, setLink_link, hl]
    rfl
  have hreserved : s.link.reserved + 1 - s.synth.commandRequests - s.jobs.length - 1 = s.link.reserved - s.jobs.length - s.synth.commandRequests := by
    omega
  rw [restart_workEnded (show (s.setLink l).OneId from hs), stopSynth_eq, State.answer, State.post, setLink_link, State.restartPorts, setPorts_link,
    (stopTransfer_kept _).link, show (s.setLink l).workEnded.restartChannels.link = (s.setLink l).workEnded.link from rfl, hended]
  dsimp only
  rw [hreserved]
  rfl

/-- The intake takes a RESTART from the head of the console list and stops: both lists are empty after it. -/
theorem intake_restart (hs : s.OneId) {more : List Record} (hhead : s.link.console.records = HostCommand.restart.record tag :: more)
    (hpref : s.link.preference = .console ∨ s.link.transfer.records = []) (hfree : 2 ≤ s.link.freePlaces) :
    ∃ l : Link, l.restart = { s.link.restart with reserved := s.link.reserved + 1 }
      ∧ s.intake = (s.setLink l).restart ⟨.console, tag, 51, 0⟩ := by
  have hnext : s.link.nextRecord = some (.console, HostCommand.restart.record tag, more) := by
    unfold Link.nextRecord
    cases hp : s.link.preference with
    | console => simp only [Link.lane, hhead]
    | transfer =>
      have hempty := hpref.resolve_left (by rw [hp]; decide)
      simp only [Link.lane, otherQueue, hhead, hempty]
  obtain ⟨n, hn⟩ : ∃ n, s.link.console.records.length + s.link.transfer.records.length = n + 1 := by
    rw [hhead]
    exact ⟨more.length + s.link.transfer.records.length, by simp only [List.length_cons]; omega⟩
  let l : Link := { s.link with console := ⟨s.link.console.assembly, more⟩, preference := .transfer, reserved := s.link.reserved + 1 }
  have htake : s.take .console (HostCommand.restart.record tag) more = (s.setLink l).restart ⟨.console, tag, 51, 0⟩ := by
    rw [take_eq, HostCommand.command_record tag _ rfl, HostCommand.record_tag, HostCommand.record_code]
    rfl
  refine ⟨l, rfl, ?_⟩
  rw [State.intake, hn, State.intakeLoop, hnext, if_pos (show Config.intakePlaces ≤ s.link.freePlaces from hfree)]
  dsimp only
  rw [htake]
  refine intakeLoop_nothing ?_ n
  rw [restart_link hs rfl]
  exact ⟨rfl, rfl⟩

theorem restart_port (hs : s.OneId) (p : Fin 4) : ((s.setLink l).restart ⟨.console, tag, 51, level⟩).port p = (s.port p).restart := by
  rw [restart_workEnded (show (s.setLink l).OneId from hs), stopSynth_eq]
  show (State.restartPorts _).port p = _
  rw [restartPorts_port]
  show (State.port _ p).restart = _
  rw [State.port, (stopTransfer_kept _).ports]
  rfl

theorem restart_channel (hs : s.OneId) (c : ChannelName) :
    ((s.setLink l).restart ⟨.console, tag, 51, level⟩).channel c
      = { Channel.reset (s.channel c).placeOne.frame (s.channel c).placeTwo.frame with grants := (s.channel c).grants } := by
  rw [restart_workEnded (show (s.setLink l).OneId from hs), stopSynth_eq, ← channelRestart_eq]
  have hkept := (stopTransfer_kept (s.setLink l).workEnded.restartChannels).channels c
  cases c <;> exact hkept

end whole

end Sys2Proof.Machine

namespace Sys2Proof

open Machine

/-- Settles O39: the requests, the jobs and the answer post in this order, and each block is cleared as its rule has it. -/
theorem restartClearsWork : Obligations.RestartClearsWork := by
  intro s tag run hs hrun
  have hone := hs.oneId
  obtain ⟨l, hl, level, hnext⟩ : ∃ l : Link, l.restart = { s.link.restart with reserved := s.link.reserved + 1 }
      ∧ ∃ level, run = .next ((s.setLink l).restart ⟨.console, tag, 51, level⟩) := by
    rcases hrun with ⟨hready, rfl⟩ | ⟨more, hhead, hpref, hfree, rfl⟩
    · exact ⟨(s.taken .console).link, rfl, s.link.level .console, exec_performs (c := .restart) hready rfl rfl (.inr rfl)⟩
    · obtain ⟨l, hl, hintake⟩ := intake_restart hone hhead hpref hfree
      exact ⟨l, hl, 0, congrArg _ hintake⟩
  refine ⟨_, hnext, restart_link hone hl, ?_⟩
  have hport := fun p => restart_port (l := l) (tag := tag) (level := level) hone p
  have hchannel := fun c => restart_channel (l := l) (tag := tag) (level := level) hone c
  have heq := restart_workEnded (s := s.setLink l) hone ⟨.console, tag, 51, level⟩
  rw [stopSynth_eq] at heq
  have hkept := stopTransfer_kept (s.setLink l).workEnded.restartChannels
  have hsynth : (s.setLink l).workEnded.restartChannels.stopTransfer.synth = s.synth := hkept.synth
  rw [hsynth] at heq
  refine ⟨?jobs, ?nextId, ?waits, ?input, ?volumes, ?profiles, ?memory, ?pending, fun p idle hidle => ⟨fun h => ?_, fun h => ?_, fun h => ?_⟩, hchannel,
    ?synth, ?transfer, fun u hu => ?some, fun hnone => ?none⟩
  case jobs => rw [heq]; exact hkept.jobs.1
  case nextId => rw [heq]; exact hkept.jobs.2
  case waits => rw [heq]; exact hkept.queues.1
  case input => rw [heq]; exact hkept.queues.2
  case volumes => rw [heq]; exact hkept.tables.1
  case profiles => rw [heq]; exact hkept.tables.2.1
  case memory => rw [heq]; exact hkept.tables.2.2.1
  case pending => rw [heq]; exact hkept.tables.2.2.2
  · rw [hport, restart_cutOff h, breakOff_stopTape_eq, hidle]
  · rw [hport, restart_lost h, breakOff_stopTape_eq, hidle]
  · rw [hport, restart_kept h]
  case synth =>
    rw [heq]
    exact ⟨rfl, rfl, rfl, rfl⟩
  case transfer =>
    rw [heq]
    exact stopTransfer_transfer _
  case some =>
    rw [stopTransfer_some (s := (s.setLink l).workEnded.restartChannels) (x := u) hu] at heq
    cases hd : u.direction with
    | outbound =>
      rw [endTransferEarly_outbound hd] at heq
      rw [heq]
      exact ⟨rfl, fun _ => ⟨rfl, rfl⟩, fun h => absurd h (by decide)⟩
    | inbound =>
      rw [endTransferEarly_inbound hd] at heq
      rw [heq]
      exact ⟨rfl, fun h => absurd h (by decide), fun _ => ⟨rfl, rfl⟩⟩
  case none =>
    rw [stopTransfer_none (s := (s.setLink l).workEnded.restartChannels) hnone] at heq
    rw [heq]
    exact ⟨rfl, rfl, rfl⟩

end Sys2Proof

/-! Ready and not-ready reports (R5, R6), with the end of a positioning (R9, R10). -/

namespace Sys2Proof.Machine

theorem onTarget_iff (p : Port) : p.onTarget = true ↔ ∃ b, p.band = some b ∧ p.headCylinder = some b.cylinder := by
  unfold Port.onTarget
  cases p.band <;> cases p.headCylinder <;> simp

/-- The conditions that end POSITIONING, by the kind of the drive. -/
theorem arrived_iff (p : Port) : p.arrived = true ↔ p.state = .positioning ∧ p.ready = true
    ∧ ((p.kind = .cartridge ∧ p.positioned = true)
      ∨ (p.kind ≠ .cartridge ∧ p.motion = .still ∧ (∃ b, p.band = some b ∧ p.headCylinder = some b.cylinder)
        ∧ (p.settleTimer = none ∨ p.stepped = false) ∧ p.spinUp = false)) := by
  unfold Port.arrived
  cases p.kind <;> simp [onTarget_iff, and_assoc]

section reports

variable {s : State} {p : Fin 4}

theorem checkArrival_not (h : (s.port p).arrived = false) : s.checkArrival p = s := by
  rw [State.checkArrival, h]
  exact if_neg (by decide)

theorem checkArrival_arrived (h : (s.port p).arrived = true) : s.checkArrival p = s.onArrival p := if_pos h

/-- A change of a port that does not complete a positioning. -/
theorem updatePort_checkArrival {f : Port → Port} (h : (f (s.port p)).arrived = false) :
    (s.updatePort p f).checkArrival p = { s with ports := s.ports.set p (f (s.port p)) } := by
  rw [checkArrival_not (by rwa [port_updatePort_self])]
  rfl

theorem exec_readyReport (h : (s.port p).state ≠ .offline) :
    exec (.readyReport p) s = .next ((s.updatePort p Port.readyReport).checkArrival p) :=
  congrArg _ (if_neg (by simpa using h))

theorem exec_readyReport_stays (h : (s.port p).state ≠ .offline) (ha : (s.port p).readyReport.arrived = false) :
    exec (.readyReport p) s = .next { s with ports := s.ports.set p { s.port p with ready := true, spinUp := false } } := by
  rw [exec_readyReport h, updatePort_checkArrival ha]
  rfl

end reports

end Sys2Proof.Machine

namespace Sys2Proof

open Machine

/-- Settles O40: a report that does not complete a positioning sets its flag alone. -/
theorem readyReports : Obligations.ReadyReports := by
  intro s p
  refine ⟨fun hoff => ⟨?_, ?_⟩, fun hon => ⟨?_, fun hst => ?_, fun hst hopen => ?_⟩⟩
  · exact congrArg _ (if_pos (by simpa using hoff))
  · exact congrArg _ (if_pos (by simpa using hoff))
  · exact congrArg _ (if_neg (by simpa using hon))
  · refine exec_readyReport_stays hon (Bool.eq_false_iff.2 fun ha => ?_)
    exact hst ((arrived_iff _).1 ha).1
  · refine exec_readyReport_stays hon (Bool.eq_false_iff.2 fun ha => ?_)
    obtain ⟨-, -, ⟨hkind, hpositioned⟩ | ⟨hkind, hmotion, -, hsettled, -⟩⟩ := (arrived_iff _).1 ha
    · rcases hopen with ⟨hfloppy, -⟩ | ⟨-, hnot⟩
      · exact absurd (hfloppy.symm.trans hkind) (by decide)
      · exact absurd (hnot.symm.trans hpositioned) (by decide)
    · rcases hopen with ⟨-, hmoves | ⟨hruns, hstepped⟩⟩ | ⟨hcartridge, -⟩
      · exact hmoves hmotion
      · exact hsettled.elim hruns fun h => absurd (hstepped.symm.trans h) (by decide)
      · exact hkind hcartridge

end Sys2Proof

/-! A media-change report (R5, R7, R22, R44, R76, R86). -/

namespace Sys2Proof.Machine

section stop

variable {u : State} {p : Fin 4}

/-- The active job of a port is stopped from outside: what becomes of it, and what follows at the port when it has left. -/
theorem stopJob_continues (hs : u.OneId) {j : Job} (hj : u.job j.id = some j) (e : Ending) :
    ∃ v, u.Stops v j e
      ∧ (u.LeavesAtOnce j → v.Continues ((u.stopJob j e).afterStop (j.decide e)) (j.decide e) (j.ending.getD e))
      ∧ (¬u.LeavesAtOnce j → (u.stopJob j e).afterStop (j.decide e) = v) := by
  obtain ⟨hgone, hstays⟩ := stopJob_job hs hj e
  obtain ⟨hcontinues, hsame⟩ := afterStop_spec (stopJob_oneId hs hj e) j e
  exact ⟨u.stopJob j e, stopJob_spec hs hj e, fun h => hcontinues (hgone h), fun h => hsame (hstays h)⟩

end stop

section report

variable {s : State} {p : Fin 4}

/-- The state that a media-change report leaves before the port's job or its offer. -/
def State.changedAt (s : State) (p : Fin 4) : State :=
  { s with
    link := { s.link with mediaChanged := s.link.mediaChanged.set p true }
    volumes := (match s.presentHandle p with
      | some h => (s.setPresent h false).volumes
      | none => s.volumes)
    ports := s.ports.set p (s.port p).mediaChanged }

theorem setPresent_setMediaChanged (h : Nat) (v : Bool) : (s.setMediaChanged p).setPresent h v = (s.setPresent h v).setMediaChanged p := by
  unfold State.setPresent
  rw [show (s.setMediaChanged p).medium h = s.medium h from rfl]
  cases s.medium h with
  | none => rfl
  | some m => dsimp only [State.setVolume]; split <;> rfl

theorem setPresent_eq (h : Nat) (v : Bool) : s.setPresent h v = s.setVolumes (s.setPresent h v).volumes := by
  unfold State.setPresent
  cases s.medium h with
  | none => rfl
  | some m => dsimp only [State.setVolume]; split <;> rfl

theorem changedAt_eq (s : State) (p : Fin 4) :
    ((s.setMediaChanged p).clearPresent p).updatePort p Port.mediaChange = s.changedAt p := by
  unfold State.clearPresent State.changedAt
  rw [show (s.setMediaChanged p).presentHandle p = s.presentHandle p from rfl, ← mediaChange_eq]
  cases s.presentHandle p with
  | none => rfl
  | some h =>
    dsimp only
    rw [setPresent_setMediaChanged, setPresent_eq]
    rfl

theorem exec_mediaChange (hon : (s.port p).state ≠ .offline) {reason : FailReason} (hr : mediaChangeReason (s.port p).state = reason) :
    exec (.mediaChangeReport p) s = .next (match s.activeJob p with
      | some j => ((s.changedAt p).stopJob j (.failed reason)).afterStop (j.decide (.failed reason))
      | none => (s.changedAt p).offer p) := by
  subst hr
  refine congrArg _ ((if_neg (by simpa using hon)).trans ?_)
  rw [changedAt_eq]
  rfl

theorem mediaChangeReason_eq (st : PortState) :
    mediaChangeReason st = if st = .retensioning then FailReason.retensionFault else .mediaGone := by
  cases st <;> rfl

end report

end Sys2Proof.Machine

namespace Sys2Proof

open Machine

/-- Settles O41: the port by its state, then its job stopped or the port offered. -/
theorem mediaChangeAtPort : Obligations.MediaChangeAtPort := by
  intro s p
  refine ⟨fun hoff => congrArg _ (if_pos (by simpa using hoff)), fun hon hs u hu => ?_⟩
  obtain rfl : u = s.changedAt p := hu
  have hone : (s.changedAt p).OneId := hs.oneId
  refine ⟨fun hnone => ?_, fun j e hj he => ?_⟩
  · refine ⟨_, exec_mediaChange hon rfl, ?_⟩
    rw [hnone]
    exact offer_spec hone p
  · have hjob : (s.changedAt p).job j.id = some j := job_oneId hone (activeJob_mem hj).1
    obtain ⟨v, hstops, hleaves, hstays⟩ := stopJob_continues hone hjob e
    refine ⟨_, v, exec_mediaChange hon (mediaChangeReason_eq _), hstops, ?_⟩
    rw [hj]
    dsimp only
    rw [← he]
    exact ⟨hleaves, hstays⟩

end Sys2Proof

/-! The marks that begin a capture or pass without an end (R15, R100, R101). -/

namespace Sys2Proof.Machine

/-! ## The reports of the marks -/

section reports

variable {s : State} {p : Fin 4} {c : ChannelName}

theorem portIs_iff (kind : PortKind) (state : PortState) : s.portIs p kind state = true ↔ (s.port p).kind = kind ∧ (s.port p).state = state := by
  simp [State.portIs]

theorem portIs_eq_false {kind : PortKind} {state : PortState} (h : (s.port p).kind ≠ kind ∨ (s.port p).state ≠ state) :
    s.portIs p kind state = false := by
  rw [Bool.eq_false_iff, ne_eq, portIs_iff]
  exact fun ⟨hk, hst⟩ => h.elim (· hk) (· hst)

theorem atChannel_none (h : s.streamChannel p = none) (f : State → ChannelName → State) : s.atChannel p f = s := by
  rw [State.atChannel, h]

theorem atChannel_some (h : s.streamChannel p = some c) (f : State → ChannelName → State) : s.atChannel p f = f s c := by
  rw [State.atChannel, h]

/-- The state with the stream watchdog of a port at its full time. -/
def State.watched (s : State) (p : Fin 4) : State := s.updatePort p Port.restartWatchdog

theorem watched_floppy (h : (s.port p).kind = .floppy) :
    s.watched p = { s with ports := s.ports.set p { s.port p with streamWatchdog := some (s.port p).indexTimeout } } := by
  have ht : (s.port p).watchdogTime = (s.port p).indexTimeout := by rw [Port.watchdogTime, h]
  rw [State.watched, State.updatePort, Port.restartWatchdog, ht]
  rfl

theorem watched_cartridge (h : (s.port p).kind = .cartridge) :
    s.watched p = { s with ports := s.ports.set p { s.port p with streamWatchdog := some (s.port p).markTimeout } } := by
  have ht : (s.port p).watchdogTime = (s.port p).markTimeout := by rw [Port.watchdogTime, h]
  rw [State.watched, State.updatePort, Port.restartWatchdog, ht]
  rfl

theorem watched_channel (s : State) (p : Fin 4) (c : ChannelName) : (s.watched p).channel c = s.channel c := rfl

theorem watched_none (h : s.streamChannel p = none) (f : State → ChannelName → State) : (s.watched p).atChannel p f = s.watched p :=
  atChannel_none (s := s.watched p) h f

theorem watched_some (h : s.streamChannel p = some c) (f : State → ChannelName → State) : (s.watched p).atChannel p f = f (s.watched p) c :=
  atChannel_some (s := s.watched p) h f

theorem exec_index (hk : (s.port p).kind = .floppy) (hst : (s.port p).state = .streaming) :
    exec (.indexReport p) s = .next ((s.watched p).atChannel p State.indexAt) := congrArg _ (if_pos ((portIs_iff ..).2 ⟨hk, hst⟩))

theorem exec_blockMark (hk : (s.port p).kind = .cartridge) (hst : (s.port p).state = .streaming) :
    exec (.blockMarkReport p) s = .next ((s.watched p).atChannel p State.blockMarkAt) := congrArg _ (if_pos ((portIs_iff ..).2 ⟨hk, hst⟩))

theorem exec_bandStart (hk : (s.port p).kind = .cartridge) (hst : (s.port p).state = .streaming) :
    exec (.bandStartMark p) s = .next ((s.watched p).atChannel p State.bandStartAt) := congrArg _ (if_pos ((portIs_iff ..).2 ⟨hk, hst⟩))

theorem exec_bandEnd (hk : (s.port p).kind = .cartridge) (hst : (s.port p).state = .streaming) :
    exec (.bandEndMark p) s = .next ((s.watched p).atChannel p State.bandEndAt) := congrArg _ (if_pos ((portIs_iff ..).2 ⟨hk, hst⟩))

theorem exec_index_discarded (h : (s.port p).kind ≠ .floppy ∨ (s.port p).state ≠ .streaming) : exec (.indexReport p) s = .next s :=
  congrArg _ (if_neg (by simp [portIs_eq_false h]))

theorem forall_mark {P : Instr → Prop} : (∀ report ∈ [Instr.blockMarkReport p, .bandStartMark p, .bandEndMark p], P report)
    ↔ P (.blockMarkReport p) ∧ P (.bandStartMark p) ∧ P (.bandEndMark p) := by simp

theorem exec_mark_discarded (h : (s.port p).kind ≠ .cartridge ∨ (s.port p).state ≠ .streaming) :
    ∀ report ∈ [Instr.blockMarkReport p, .bandStartMark p, .bandEndMark p], exec report s = .next s :=
  forall_mark.2 ⟨congrArg _ (if_neg (by simp [portIs_eq_false h])), congrArg _ (if_neg (by simp [portIs_eq_false h])),
    congrArg _ (if_neg (by simp [portIs_eq_false h]))⟩

end reports

/-! ## What a channel makes of them -/

section channel

variable {s : State} {c : ChannelName} {parameters : PassParameters}

theorem indexRule_eq {ch : Channel} (hp : ch.parameters = some parameters) (hk : parameters.kind = .floppy) :
    ch.indexRule = decide (parameters.startRule = .index) := by
  rw [Channel.indexRule, hp]
  cases h : parameters.startRule <;> simp [hk, h]

theorem firstRule_eq {ch : Channel} (hp : ch.parameters = some parameters) (hk : parameters.kind = .floppy) :
    ch.firstRule = decide (parameters.startRule = .first) := by
  rw [Channel.firstRule, hp]
  cases h : parameters.startRule <;> simp [hk, h]

theorem indexAt_begins (hp : (s.channel c).parameters = some parameters) (hk : parameters.kind = .floppy)
    (hr : parameters.startRule = .index) (hst : (s.channel c).state = .armed) : s.indexAt c
      = s.setChannel c { s.channel c with state := .capturing, startId := none, indexesSeen := satSucc 2 (s.channel c).indexesSeen } := by
  simp only [State.indexAt, indexRule_eq hp hk, hr, decide_true, if_true, hst, State.captureStart, State.updateChannel, setChannel_setChannel,
    channel_setChannel]

theorem indexAt_counts (hp : (s.channel c).parameters = some parameters) (hk : parameters.kind = .floppy)
    (hr : parameters.startRule = .first) (hseen : (s.channel c).indexesSeen ≠ 1) : s.indexAt c
      = s.setChannel c { s.channel c with indexesSeen := satSucc 2 (s.channel c).indexesSeen } := by
  have hnot : ((s.channel c).indexesSeen == 1) = false := beq_eq_false_iff_ne.2 hseen
  simp [State.indexAt, indexRule_eq hp hk, firstRule_eq hp hk, hr, hnot, State.updateChannel]

theorem indexAt_ends (hp : (s.channel c).parameters = some parameters) (hk : parameters.kind = .floppy)
    (h : (parameters.startRule = .index ∧ (s.channel c).state = .capturing) ∨ (parameters.startRule = .first ∧ (s.channel c).indexesSeen = 1)) :
    s.indexAt c = (s.setChannel c { s.channel c with indexesSeen := satSucc 2 (s.channel c).indexesSeen }).captureEnd c := by
  rcases h with ⟨hr, hst⟩ | ⟨hr, hseen⟩
  · simp [State.indexAt, indexRule_eq hp hk, hr, hst, State.updateChannel]
  · simp [State.indexAt, indexRule_eq hp hk, firstRule_eq hp hk, hr, hseen, State.updateChannel]

theorem bandStartAt_begins (h : (s.channel c).state = .armed) :
    s.bandStartAt c = s.setChannel c { s.channel c with state := .capturing, startId := none } := by
  rw [State.bandStartAt, h]
  rfl

theorem bandStartAt_capturing (h : (s.channel c).state = .capturing) : s.bandStartAt c = s := by
  rw [State.bandStartAt, h]

theorem blockMarkAt_clear (h : (s.channel c).receipt = none) : s.blockMarkAt c = s := by
  rw [State.blockMarkAt]
  cases (s.channel c).state
  case capturing =>
    dsimp only
    rw [State.meetReceipt, h]
  all_goals rfl

end channel

end Sys2Proof.Machine

namespace Sys2Proof

open Machine

/-- Settles O42: the watchdog restarts, and the channel takes the mark by its state and its start rule. -/
theorem captureMarks : Obligations.CaptureMarks := by
  refine ⟨fun s p => ⟨exec_index_discarded, exec_mark_discarded, fun hnone hst => ⟨fun hk => ?_, fun hk => ?_⟩⟩,
    fun s p c rule parameters hc hp hrule hkind hst => ⟨fun hk watched hw => ?floppy, fun hk watched hw => ?cartridge⟩⟩
  · rw [exec_index hk hst, watched_none hnone, watched_floppy hk]
  · rw [forall_mark, exec_blockMark hk hst, exec_bandStart hk hst, exec_bandEnd hk hst, ← watched_cartridge hk]
    exact ⟨congrArg _ (watched_none hnone _), congrArg _ (watched_none hnone _), congrArg _ (watched_none hnone _)⟩
  case floppy =>
    obtain rfl : watched = s.watched p := hw.trans (watched_floppy hk).symm
    subst hrule
    have hexec : exec (.indexReport p) s = .next ((s.watched p).indexAt c) := by rw [exec_index hk hst, watched_some hc]
    have hk' := hkind.trans hk
    refine ⟨fun hr harmed hseen => ?_, fun hr hseen => ?_, exec_mark_discarded (.inl (by rw [hk]; decide))⟩
    · rw [hexec, indexAt_begins (s := s.watched p) hp hk' hr harmed, watched_channel, hseen]
      rfl
    · rw [hexec, indexAt_counts (s := s.watched p) hp hk' hr (by rw [watched_channel, hseen]; decide), watched_channel, hseen]
      rfl
  case cartridge =>
    obtain rfl : watched = s.watched p := hw.trans (watched_cartridge hk).symm
    refine ⟨fun harmed => ?_, fun hcapturing => ?_, fun hnone => ?_, exec_index_discarded (.inl (by rw [hk]; decide))⟩
    · rw [exec_bandStart hk hst, watched_some hc, bandStartAt_begins (s := s.watched p) harmed]
      rfl
    · rw [exec_bandStart hk hst, watched_some hc, bandStartAt_capturing (s := s.watched p) hcapturing]
    · rw [exec_blockMark hk hst, watched_some hc, blockMarkAt_clear (s := s.watched p) hnone]

end Sys2Proof

/-! The normal end of a pass (R16, R70, R77, R95 to R97, R100 to R102). -/

namespace Sys2Proof.Machine

/-! ## The stream that a channel sees (R112) -/

theorem sees_iff (ch : Channel) (p : Fin 4) : ch.sees p = true ↔ ch.port = some p ∧ (ch.state = .armed ∨ ch.state = .capturing) := by
  simp [Channel.sees]

theorem streamChannel_sees {s : State} {p : Fin 4} {c : ChannelName} (h : s.streamChannel p = some c) :
    (s.channel c).port = some p ∧ ((s.channel c).state = .armed ∨ (s.channel c).state = .capturing) := by
  rw [← sees_iff]
  unfold State.streamChannel at h
  split at h
  · cases h
    assumption
  · split at h
    · cases h
      assumption
    · cases h

/-! ## The ends of a pass under the watchdog -/

section ends

variable {u v t : State} {p : Fin 4} {c : ChannelName} {j : Job}

/-- What follows the end of a pass depends on the state with the pass ended alone. -/
theorem endsPass_congr (h : v.passEnded j = u.passEnded j) (hc : v.channel c = u.channel c) (he : v.EndsPass t c j) : u.EndsPass t c j where
  held hh := by
    have := he.held hh
    rwa [h, hc] at this
  released hh := by
    have := he.released hh
    rwa [h] at this

theorem streamEnded_watched (u : State) (p : Fin 4) :
    (u.watched p).ports.set p ((u.watched p).port p).streamEnded = u.ports.set p (u.port p).streamEnded := by
  rw [State.watched, port_updatePort_self]
  exact Four.set_set ..

theorem passEnded_watched (hd : j.drive = p) : (u.watched p).passEnded j = u.passEnded j := by
  subst hd
  unfold State.passEnded
  rw [streamEnded_watched]
  rfl

theorem watched_state (u : State) (p : Fin 4) : ((u.watched p).port p).state = (u.port p).state := by
  rw [State.watched, port_updatePort_self]
  rfl

theorem endsPass_watched (hs : u.OneId) (hk : u.OneKey) (ho : (u.channel c).owner = some j.id) (hj : u.job j.id = some j)
    (hr : (u.channel c).receipt = none) (hst : (u.port p).state = .streaming) (hd : j.drive = p) :
    u.EndsPass ((u.watched p).endPassNormally c) c j := by
  have hstream : ((u.watched p).port j.drive).state = .streaming := by rw [hd, watched_state, hst]
  exact endsPass_congr (passEnded_watched hd) rfl (endPassNormally_spec (u := u.watched p) hs hk ho hj hr hstream)

theorem endsCancelled_watched (hs : u.OneId) (hk : u.OneKey) (ho : (u.channel c).owner = some j.id) (hj : u.job j.id = some j)
    (hr : (u.channel c).receipt = none) (hst : (u.port p).state = .streaming) (hd : j.drive = p) :
    u.EndsCancelled ((u.watched p).endPassCancelled c) c j := by
  have hstream : ((u.watched p).port j.drive).state = .streaming := by rw [hd, watched_state, hst]
  have hends := endPassCancelled_spec (u := u.watched p) hs hk ho hj hr hstream
  subst hd
  unfold State.EndsCancelled at hends ⊢
  rw [streamEnded_watched] at hends
  exact hends

end ends

/-! ## The end of a capture -/

section capture

variable {s : State} {c : ChannelName}

theorem captureEnd_clear (h : (s.channel c).receipt = none) : s.captureEnd c = s.endPassNormally c := by
  simp [State.captureEnd, h]

/-- The end of a capture that meets a sector in receipt is pending, after any end that was pending before. -/
theorem captureEnd_receipt {r : Receipt} (h : (s.channel c).receipt = some r) : s.captureEnd c
    = s.setChannel c { s.channel c with endPending := some ((s.channel c).endPending.getD .captureEnd) } := by
  have hmet : ¬(s.channel c).receipt.isNone = true := by simp [h]
  refine (if_neg hmet).trans ?_
  cases he : (s.channel c).endPending with
  | none => rfl
  | some e =>
    refine (setChannel_self s c).symm.trans ?_
    rw [Option.getD_some, ← he]

theorem bandEndAt_clear (hst : (s.channel c).state = .armed ∨ (s.channel c).state = .capturing) (h : (s.channel c).receipt = none) :
    s.bandEndAt c = s.endPassNormally c := by
  rw [State.bandEndAt]
  rcases hst with hst | hst
  · rw [hst]
  · rw [hst, h]
    exact captureEnd_clear h

theorem passJob_of_owner {j : Job} (ho : (s.channel c).owner = some j.id) (hj : s.job j.id = some j) : s.passJob c = some j := by
  rw [State.passJob, ho]
  exact hj

theorem dropReceipt_some {ch : Channel} {r : Receipt} (h : ch.receipt = some r) :
    ch.dropReceipt = { ch.setCondition r.place .free with receipt := none } := by
  rw [Channel.dropReceipt, h]

theorem setCondition_endPending (ch : Channel) (n : PlaceName) (v : PlaceCondition) : (ch.setCondition n v).endPending = ch.endPending := by
  cases n <;> rfl

theorem dropReceipt_endPending (ch : Channel) : ch.dropReceipt.endPending = ch.endPending := by
  cases h : ch.receipt with
  | none => rw [dropReceipt_of_none h]
  | some r => rw [dropReceipt_some h, setCondition_endPending]

/-- A band end mark in a data field: the sector is discarded, and the pass ends as the end that is pending has it. -/
theorem bandEndAt_cut {r : Receipt} {j : Job} (hst : (s.channel c).state = .capturing) (h : (s.channel c).receipt = some r)
    (hr : r.dataMark = true) (hj : s.passJob c = some j) : s.bandEndAt c
      = if (s.channel c).endPending = some .cancel then (s.discardSector c).endPassCancelled c else (s.discardSector c).endPassNormally c := by
  have hclear : ((s.discardSector c).channel c).receipt = none := by
    rw [State.discardSector, updateChannel_eq, channel_setChannel, ← discarded_eq]
    exact discarded_receipt _
  have hpending : ((s.discardSector c).channel c).endPending = (s.channel c).endPending := by
    rw [State.discardSector, updateChannel_eq, channel_setChannel, dropReceipt_endPending]
  rw [State.bandEndAt, hst, h, hj]
  dsimp only
  rw [hr, State.afterSector, hpending]
  rcases (s.channel c).endPending with - | - | -
  · exact captureEnd_clear hclear
  · rfl
  · rfl

end capture

/-! ## A good header -/

section header

variable {s : State} {p : Fin 4} {c : ChannelName}

theorem exec_goodHeader (hc : s.streamChannel p = some c) (cylinder head sector size : Nat) :
    exec (.goodHeader p cylinder head sector size) s = .next (s.goodHeaderAt c ⟨cylinder, head, sector, size⟩) := congrArg _ (atChannel_some hc _)

theorem goodHeaderAt_recurs {h : Header} (hst : (s.channel c).state = .capturing) (hr : (s.channel c).receipt = none)
    (hrule : (s.channel c).firstRule = true) (hid : (s.channel c).startId = some h.sector) : s.goodHeaderAt c h = s.endPassNormally c := by
  rw [State.goodHeaderAt, hst]
  dsimp only
  rw [meetReceipt_none hr, if_pos rfl, hrule, hid, if_pos (by simp), captureEnd_clear hr]

end header

end Sys2Proof.Machine

namespace Sys2Proof

open Machine

/-- Settles O43: each mark comes to the end of the pass, at once or, with a sector in receipt, after it. -/
theorem passEndsHeld : Obligations.PassEndsHeld := by
  intro s p c j parameters hc ho hj hs ht hd hst hp hkind
  refine ⟨fun hr u mark hmark => ?_, fun r hr hk hends => ?_, fun r u hr hmark hk hcapturing hu => ?_⟩
  · rcases hmark with ⟨rfl, hk, hu⟩ | ⟨rfl, hk, hends, hu⟩ | ⟨cylinder, head, sector, size, rfl, hk, hcapturing, hrule, hid, hu⟩
    · subst u
      refine ⟨_, exec_bandEnd hk hst, ?_⟩
      rw [watched_some hc, bandEndAt_clear (s := s.watched p) (streamChannel_sees hc).2 hr]
      exact endsPass_watched hs.oneId ht.oneKey ho hj hr hst hd
    · subst u
      refine ⟨_, exec_index hk hst, ?_⟩
      have hseen : (s.setChannel c { s.channel c with indexesSeen := satSucc 2 (s.channel c).indexesSeen }).watched p
          = (s.watched p).setChannel c { s.channel c with indexesSeen := satSucc 2 (s.channel c).indexesSeen } :=
        updatePort_setChannel ..
      rw [watched_some hc, indexAt_ends (s := s.watched p) hp (hkind.trans hk) hends, watched_channel, ← hseen, captureEnd_clear]
      · refine endsPass_watched (setChannel_oneId hs.oneId c _) (setChannel_oneKey ht.oneKey c _) ?_ ?_ ?_ ?_ hd
        · rw [channel_setChannel]; exact ho
        · rw [setChannel_job]; exact hj
        · rw [channel_setChannel]; exact hr
        · rw [setChannel_port]; exact hst
      · rw [watched_channel, channel_setChannel]
        exact hr
    · subst u
      refine ⟨_, exec_goodHeader hc .., ?_⟩
      rw [goodHeaderAt_recurs hcapturing hr ((firstRule_eq hp (hkind.trans hk)).trans (decide_eq_true hrule)) hid]
      exact endPassNormally_spec hs.oneId ht.oneKey ho hj hr (by rw [hd]; exact hst)
  · rw [exec_index hk hst, watched_some hc, indexAt_ends (s := s.watched p) hp (hkind.trans hk) hends,
      captureEnd_receipt (r := r) (by rw [channel_setChannel]; exact hr), channel_setChannel, setChannel_setChannel, watched_floppy hk]
    rfl
  · have hdiscard : (s.watched p).discardSector c = u.watched p := by
      rw [hu, State.discardSector, updateChannel_eq, discarded_eq]
      exact (updatePort_setChannel ..).symm
    have hjob : (s.watched p).passJob c = some j := passJob_of_owner (s := s.watched p) ho hj
    have hone : u.OneId := hu ▸ setChannel_oneId hs.oneId c _
    have hkey : u.OneKey := hu ▸ setChannel_oneKey ht.oneKey c _
    have hown : (u.channel c).owner = some j.id := by rw [hu, channel_setChannel, discarded_owner, ho]
    have hjob' : u.job j.id = some j := by rw [hu, setChannel_job, hj]
    have hclear : (u.channel c).receipt = none := by rw [hu, channel_setChannel]; exact discarded_receipt _
    have hstream : (u.port p).state = .streaming := by rw [hu, setChannel_port, hst]
    refine ⟨_, exec_bandEnd hk hst, ?_⟩
    rw [watched_some hc, bandEndAt_cut (s := s.watched p) hcapturing hr hmark hjob, hdiscard]
    refine ⟨fun hne => ?_, fun he => ?_⟩
    · rw [if_neg (show ((s.watched p).channel c).endPending ≠ _ from hne)]
      exact endsPass_watched hone hkey hown hjob' hclear hstream hd
    · rw [if_pos (show ((s.watched p).channel c).endPending = _ from he)]
      exact endsCancelled_watched hone hkey hown hjob' hclear hstream hd

end Sys2Proof

/-! A positioning request and what carries it on (R1, R8, R9, R10). -/

namespace Sys2Proof.Machine

/-! ## The steps of a seek -/

section seek

variable {q : Port} {b : BandAddress} {h : Nat}

theorem seekSettled_iff (hb : q.band = some b) (hh : q.headCylinder = some h) : q.seekSettled
    = { q with motion := if h = b.cylinder then .still else .seeking, stepTimer := if h = b.cylinder then none else q.stepTimer } := by
  have hon : q.onTarget = decide (h = b.cylinder) := by
    rw [Bool.eq_iff_iff, onTarget_iff, hb, hh, decide_eq_true_eq]
    simp
  unfold Port.seekSettled
  rw [hon]
  by_cases he : h = b.cylinder <;> simp [he]

theorem seek_inward (hb : q.band = some b) (hh : q.headCylinder = some h) (hlt : h < b.cylinder) : (q.seekStep b.cylinder).seekSettled
    = { q with
        headCylinder := some (h + 1), settleTimer := some q.settleTime, stepped := true
        stepTimer := if h + 1 = b.cylinder then none else some 3
        motion := if h + 1 = b.cylinder then .still else .seeking
        requests := q.requests ++ [.stepIn] } := by
  have hstep : q.seekStep b.cylinder = q.stepInward := by
    rw [Port.seekStep, hh]
    exact if_pos hlt
  rw [hstep, seekSettled_iff (q := q.stepInward) (b := b) (h := h + 1) hb (by rw [Port.stepInward, hh]; rfl), Port.stepInward, hh]
  rfl

theorem seek_outward (hb : q.band = some b) (hh : q.headCylinder = some h) (hlt : b.cylinder < h) : (q.seekStep b.cylinder).seekSettled
    = { q with
        headCylinder := some (h - 1), settleTimer := some q.settleTime, stepped := true
        stepTimer := if h = b.cylinder + 1 then none else some 3
        motion := if h = b.cylinder + 1 then .still else .seeking
        requests := q.requests ++ [.stepOut] } := by
  have hstep : q.seekStep b.cylinder = q.stepOutward := by
    rw [Port.seekStep, hh]
    exact (if_neg (by omega)).trans (if_pos hlt)
  have hreached : (h - 1 = b.cylinder) = (h = b.cylinder + 1) := propext (by omega)
  rw [hstep, seekSettled_iff (q := q.stepOutward) (b := b) (h := h - 1) hb (by rw [Port.stepOutward, hh]; rfl), Port.stepOutward, hh]
  simp only [hreached]
  rfl

theorem seek_there (hb : q.band = some b) (hh : q.headCylinder = some b.cylinder) (hm : q.motion = .still) (ht : q.stepTimer = none) :
    (q.seekStep b.cylinder).seekSettled = q := by
  have hstep : q.seekStep b.cylinder = q := by
    rw [Port.seekStep, hh]
    exact (if_neg (by omega)).trans (if_neg (by omega))
  rw [hstep, seekSettled_iff hb hh, if_pos rfl, if_pos rfl, ← hm, ← ht]

end seek

/-! ## The request (R1, R8, R10) -/

/-- A floppy port that has taken a positioning request, its head not yet moved. -/
def Port.headSelected (p : Port) (b : BandAddress) (format : Encoding × DataRate) : Port :=
  { p with state := .positioning, band := some b, format := some format, overtimeTimer := some 10000, stepped := false, positioned := false
           motion := .still, stepTimer := none, atStart := true, motor := true, spinUp := p.spinUp || !p.motor
           requests := p.requests ++ (if p.motor then [] else [.motorOn]) ++ [.selectHead b.head] }

theorem positionRequest_floppy {p : Port} (hk : p.kind = .floppy) (b : BandAddress) (format : Encoding × DataRate) :
    p.positionRequest b format = (p.headSelected b format).startMotion := by
  have hselected : ((({ p.enterPositioning b with format := some format, atStart := true } : Port).motorStart).ask (.selectHead b.head))
      = p.headSelected b format := by
    unfold Port.motorStart Port.headSelected
    cases hm : p.motor <;> simp [Port.enterPositioning, Port.ask, hm, Config.overtime]
  unfold Port.positionRequest
  rw [← hselected]
  cases hk' : p.kind
  case floppy => rfl
  all_goals exact absurd (hk'.symm.trans hk) (by decide)

theorem positionRequest_cartridge {p : Port} (hk : p.kind = .cartridge) (b : BandAddress) (format : Encoding × DataRate) :
    p.positionRequest b format = { p with
      state := .positioning, band := some b, format := some format, overtimeTimer := some 10000, stepped := false, positioned := false
      motion := .still, stepTimer := none, requests := p.requests ++ [.position b] } := by
  unfold Port.positionRequest
  cases hk' : p.kind
  case cartridge =>
    simp [Port.enterPositioning, Port.ask, hk', Config.overtime]
  all_goals exact absurd (hk'.symm.trans hk) (by decide)

theorem startMotion_unknown {q : Port} (h : q.headCylinder = none) : q.startMotion = { q with
    motion := .recalibrating, stepped := true, settleTimer := some q.settleTime, stepTimer := some 3, requests := q.requests ++ [.stepOut] } := by
  have hmap : q.headCylinder.map (· - 1) = q.headCylinder := by rw [h]; rfl
  have hstart : q.startMotion = { q.stepOutward with motion := .recalibrating } := by rw [Port.startMotion, h]
  rw [hstart, Port.stepOutward, hmap]
  rfl

theorem startMotion_known {q : Port} {b : BandAddress} {h : Nat} (hh : q.headCylinder = some h) (hb : q.band = some b) :
    q.startMotion = (q.seekStep b.cylinder).seekSettled := by
  rw [Port.startMotion, hh, hb]

/-! ## The reports and expiries -/

section events

variable {s : State} {p : Fin 4} {n : Nat}

theorem exec_track0 (hk : (s.port p).kind = .floppy) (hst : (s.port p).state = .positioning) (hm : (s.port p).motion = .recalibrating) :
    exec (.track0Report p) s = .next ((s.updatePort p Port.endRecalibration).checkArrival p) :=
  congrArg _ (if_pos (by rw [(portIs_iff ..).2 ⟨hk, hst⟩, hm]; rfl))

theorem exec_positioned (hk : (s.port p).kind = .cartridge) (hst : (s.port p).state = .positioning) :
    exec (.positionedReport p) s = .next ((s.updatePort p fun q => { q with positioned := true }).checkArrival p) :=
  congrArg _ (if_pos ((portIs_iff ..).2 ⟨hk, hst⟩))

theorem exec_settle (h : (s.port p).settleTimer ≠ none) :
    exec (.settleExpiry p) s = .next ((s.updatePort p fun q => { q with settleTimer := none }).checkArrival p) :=
  congrArg _ (if_pos (Option.isSome_iff_ne_none.2 h))

theorem exec_step (h : (s.port p).stepTimer = some n) : exec (.stepIntervalExpiry p) s = .next (s.updatePort p Port.stepDue) :=
  congrArg _ (if_pos (by rw [h]; rfl))

theorem stepDue_seeking {q : Port} {b : BandAddress} (hst : q.state = .positioning) (hm : q.motion = .seeking) (hb : q.band = some b) :
    q.stepDue = (q.seekStep b.cylinder).seekSettled := by
  rw [Port.stepDue, hst, hm, hb]

/-- A recalibration and a park step outward at each interval. -/
theorem stepDue_outward {q : Port} (h : q.state = .parking ∨ (q.state = .positioning ∧ q.motion = .recalibrating)) :
    q.stepDue = q.stepOutward := by
  rw [Port.stepDue]
  rcases h with h | ⟨h, hm⟩
  · rw [h]
  · rw [h, hm]

theorem endRecalibration_eq {q : Port} {b : BandAddress} (hb : q.band = some b) : q.endRecalibration
    = { q with headCylinder := some 0, motion := if b.cylinder = 0 then .still else .seeking
               stepTimer := if b.cylinder = 0 then none else q.stepTimer } := by
  have h := seekSettled_iff (q := { q with headCylinder := some 0 }) (b := b) (h := 0) hb rfl
  simp only [eq_comm (a := 0)] at h
  exact h

end events

end Sys2Proof.Machine

namespace Sys2Proof

open Machine

/-- Settles O44: the request by the drive's kind and the head's cylinder, and each event that carries the positioning on. -/
theorem positioningProceeds : Obligations.PositioningProceeds := by
  refine ⟨fun p b format entered hentered => ⟨fun hk => ?cartridge, fun hk asked hasked => ⟨fun hh => ?unknown, fun hh => ?there, fun c hh hlt => ?inward,
    fun c hh hlt => ?outward⟩⟩, fun s p => ⟨fun h => ?positioned, fun h => ?track0⟩, fun s p b hst hb => ⟨fun hk hm => ⟨fun hne => ?seeks, fun h0 hopen => ?arrives,
    fun n hn => ?recalibrates⟩, fun n hn hopen hk => ?settles, fun hk hm h n hh hn => ⟨fun hlt => ?stepIn, fun hlt => ?stepOut⟩, fun hk hr => ?notReady⟩⟩
  case cartridge => rw [positionRequest_cartridge hk, hentered]
  case unknown =>
    rw [positionRequest_floppy hk, startMotion_unknown (q := p.headSelected b format) hh, hentered, hasked]
    rfl
  case there =>
    rw [positionRequest_floppy hk, startMotion_known (q := p.headSelected b format) hh rfl, seek_there (q := p.headSelected b format) rfl hh rfl rfl, hentered, hasked]
    rfl
  case inward =>
    rw [positionRequest_floppy hk, startMotion_known (q := p.headSelected b format) hh rfl, seek_inward (q := p.headSelected b format) rfl hh hlt, hentered, hasked]
    rfl
  case outward =>
    rw [positionRequest_floppy hk, startMotion_known (q := p.headSelected b format) hh rfl, seek_outward (q := p.headSelected b format) rfl hh hlt, hentered, hasked]
    rfl
  case positioned => exact congrArg _ (if_neg (by simp [portIs_eq_false h]))
  case track0 =>
    have hfirst : ¬(s.portIs p .floppy .positioning && (s.port p).motion == .recalibrating) = true := by
      rw [Bool.and_eq_true, portIs_iff, beq_iff_eq]
      rintro ⟨⟨hk, hst⟩, hm⟩
      rcases h with h | h | ⟨-, h⟩
      · exact h hk
      · exact h (by rw [hst]; decide)
      · exact h hm
    have hsecond : ¬s.portIs p .floppy .parking = true := by
      rw [portIs_iff]
      rintro ⟨hk, hst⟩
      rcases h with h | h | ⟨h, -⟩
      · exact h hk
      · exact h (by rw [hst]; decide)
      · exact absurd (hst.symm.trans h) (by decide)
    exact congrArg _ ((if_neg hfirst).trans (if_neg hsecond))
  case seeks =>
    have hseeks : (s.port p).endRecalibration = { s.port p with headCylinder := some 0, motion := .seeking } := by
      rw [endRecalibration_eq hb, if_neg hne, if_neg hne]
    rw [exec_track0 hk hst hm, updatePort_checkArrival, hseeks]
    rw [hseeks, Bool.eq_false_iff, ne_eq, arrived_iff]
    rintro ⟨-, -, ⟨hkind, -⟩ | ⟨-, hstill, -⟩⟩
    · exact absurd (hk.symm.trans hkind) (by decide)
    · exact absurd (show Motion.seeking = .still from hstill) (by decide)
  case arrives =>
    have hstops : (s.port p).endRecalibration = { s.port p with headCylinder := some 0, motion := .still, stepTimer := none } := by
      rw [endRecalibration_eq hb, if_pos h0, if_pos h0]
    rw [exec_track0 hk hst hm, updatePort_checkArrival, hstops]
    rw [hstops, Bool.eq_false_iff, ne_eq, arrived_iff]
    rintro ⟨-, hready, ⟨hkind, -⟩ | ⟨-, -, -, hsettled, hspin⟩⟩
    · exact absurd (hk.symm.trans hkind) (by decide)
    · rcases hopen with h | h | ⟨hruns, hstepped⟩
      · exact absurd (h.symm.trans hready) (by decide)
      · exact absurd (h.symm.trans hspin) (by decide)
      · exact hsettled.elim hruns fun h => absurd (hstepped.symm.trans h) (by decide)
  case recalibrates =>
    rw [exec_step hn, State.updatePort, stepDue_outward (.inr ⟨hst, hm⟩)]
    rfl
  case settles =>
    rw [exec_settle (by rw [hn]; exact Option.some_ne_none _), updatePort_checkArrival]
    rw [Bool.eq_false_iff, ne_eq, arrived_iff]
    rintro ⟨-, hready, ⟨hkind, -⟩ | ⟨-, hstill, -, -, hspin⟩⟩
    · exact absurd (hk.symm.trans hkind) (by decide)
    · rcases hopen with h | h | h
      · exact h hstill
      · exact absurd (h.symm.trans hready) (by decide)
      · exact absurd (h.symm.trans hspin) (by decide)
  case stepIn =>
    rw [exec_step hn, State.updatePort, stepDue_seeking hst hm hb, seek_inward hb hh hlt]
    rfl
  case stepOut =>
    rw [exec_step hn, State.updatePort, stepDue_seeking hst hm hb, seek_outward hb hh hlt]
    rfl
  case notReady =>
    rw [exec_positioned hk hst, updatePort_checkArrival]
    rw [Bool.eq_false_iff, ne_eq, arrived_iff]
    rintro ⟨-, hready, -⟩
    exact absurd (hr.symm.trans hready) (by decide)

end Sys2Proof

/-! The end of a positioning (R9, R10, R64, R65, R69, R84), and the ends of a park and of a retension (R18, R21, R76). -/

namespace Sys2Proof.Machine

/-! ## Arrival -/

section arrival

variable {s : State} {p : Fin 4}

/-- An event that completes a positioning. -/
theorem updatePort_arrives {f : Port → Port} {arrived : Port} (hf : f (s.port p) = arrived) (ha : arrived.arrived = true) :
    (s.updatePort p f).checkArrival p = (s.updatePort p f).onArrival p :=
  checkArrival_arrived (by rwa [port_updatePort_self, hf])

/-- The state of a port that has reached its band. -/
def State.onBandAt (s : State) (p : Fin 4) (arrived : Port) : State :=
  { s with ports := s.ports.set p { arrived with state := .onBand, overtimeTimer := none, atStart := true } }

theorem updatePort_enterOnBand {f : Port → Port} {arrived : Port} (hf : f (s.port p) = arrived) :
    (s.updatePort p f).updatePort p Port.enterOnBand = s.onBandAt p arrived := by
  rw [updatePort_updatePort, State.updatePort]
  simp only [hf]
  rfl

theorem onBandAt_port (arrived : Port) :
    (s.onBandAt p arrived).port p = { arrived with state := .onBand, overtimeTimer := none, atStart := true } := Four.get_set_self ..

/-- What follows at a port on the band: it parks, its job goes on, or it is offered. -/
theorem onArrival_spec (hs : s.OneId) {f : Port → Port} {arrived : Port} (hf : f (s.port p) = arrived) :
    (arrived.parkOnArrival = true → (s.updatePort p f).onArrival p
        = { s with ports := s.ports.set p { ((s.onBandAt p arrived).port p).parkStarted with parkOnArrival := false } })
      ∧ (arrived.parkOnArrival = false →
        (∀ j, s.activeJob p = some j → (j.state = .positioning ∨ j.state = .reseating) →
            (s.onBandAt p arrived).AwaitsChannel ((s.updatePort p f).onArrival p) j)
          ∧ (s.activeJob p = none → (s.onBandAt p arrived).Offers ((s.updatePort p f).onArrival p) p)) := by
  have hflag : ((s.onBandAt p arrived).port p).parkOnArrival = arrived.parkOnArrival := by rw [onBandAt_port]
  have hone : (s.onBandAt p arrived).OneId := hs
  unfold State.onArrival
  rw [updatePort_enterOnBand hf]
  dsimp only
  rw [hflag]
  refine ⟨fun hpark => ?_, fun hpark => ⟨fun j hj hstate => ?_, fun hnone => ?_⟩⟩
  · rw [if_pos hpark, startPark_eq]
    exact congrArg s.setPorts (Four.set_set ..)
  · rw [if_neg (by rw [hpark]; decide), show (s.onBandAt p arrived).activeJob p = some j from hj]
    dsimp only
    rw [if_pos (by simpa using hstate)]
    exact awaitChannel_spec hone (job_oneId hone (activeJob_mem hj).1)
  · rw [if_neg (by rw [hpark]; decide), show (s.onBandAt p arrived).activeJob p = none from hnone]
    exact offer_spec hone p

end arrival

end Sys2Proof.Machine

namespace Sys2Proof

open Machine

/-- Settles O45: each of the five events completes the positioning, and the port goes on as it arrives. -/
theorem positioningEnds : Obligations.PositioningEnds := by
  intro s u p b arrived event hst hb hs hevent hu
  obtain ⟨f, hf, hexec, ha, hflag⟩ : ∃ f, f (s.port p) = arrived ∧ exec event s = .next ((s.updatePort p f).checkArrival p)
      ∧ arrived.arrived = true ∧ arrived.parkOnArrival = (s.port p).parkOnArrival := by
    rcases hevent with ⟨rfl, hk, hruns, hready, hspin, hm, hh, rfl⟩ | ⟨rfl, hk, hsettled, hm, hh, rfl⟩
      | ⟨rfl, hk, hm, h0, hready, hspin, hsettled, rfl⟩ | ⟨rfl, hk, hready, rfl⟩ | ⟨rfl, hk, hpositioned, rfl⟩
    · exact ⟨_, rfl, exec_settle hruns,
        (arrived_iff _).2 ⟨hst, hready, .inr ⟨fun h => absurd (hk.symm.trans h) (by decide), hm, ⟨b, hb, hh⟩, .inl rfl, hspin⟩⟩, rfl⟩
    · exact ⟨_, rfl, exec_readyReport (by rw [hst]; decide),
        (arrived_iff _).2 ⟨hst, rfl, .inr ⟨fun h => absurd (hk.symm.trans h) (by decide), hm, ⟨b, hb, hh⟩, hsettled, rfl⟩⟩, rfl⟩
    · refine ⟨Port.endRecalibration, ?_, exec_track0 hk hst hm,
        (arrived_iff _).2 ⟨hst, hready, .inr ⟨fun h => absurd (hk.symm.trans h) (by decide), rfl, ⟨b, hb, ?_⟩, hsettled, hspin⟩⟩, rfl⟩
      · rw [endRecalibration_eq hb, if_pos h0, if_pos h0]
      · rw [h0]
    · exact ⟨_, rfl, exec_positioned hk hst, (arrived_iff _).2 ⟨hst, hready, .inl ⟨hk, rfl⟩⟩, rfl⟩
    · exact ⟨_, rfl, exec_readyReport (by rw [hst]; decide), (arrived_iff _).2 ⟨hst, rfl, .inl ⟨hk, hpositioned⟩⟩, rfl⟩
  obtain rfl : u = s.onBandAt p arrived := hu
  rw [updatePort_arrives hf ha] at hexec
  obtain ⟨hparks, hgoes⟩ := onArrival_spec hs.oneId hf
  rw [hflag] at hparks hgoes
  exact ⟨_, hexec, hparks, hgoes⟩

end Sys2Proof

/-! The steps of a park, and the ends of a park and of a retension (R18, R21, R64, R76). -/

namespace Sys2Proof.Machine

theorem endPark_floppy {q : Port} (hk : q.kind = .floppy) : q.endPark = { q with
    state := .idle, overtimeTimer := none, stepTimer := none, headCylinder := some 0, motor := false, spinUp := false, parkOnArrival := false
    requests := q.requests ++ if q.motor then [.motorOff] else [] } := by
  have hpark : q.endPark = { q.motorStop with
      state := .idle, overtimeTimer := none, stepTimer := none, headCylinder := some 0, spinUp := false, parkOnArrival := false } := by
    rw [Port.endPark, hk]
  rw [hpark, Port.motorStop]
  cases hm : q.motor <;> simp [Port.ask, hm]

theorem endPark_cartridge {q : Port} (hk : q.kind = .cartridge) :
    q.endPark = { q with state := .idle, overtimeTimer := none, parkOnArrival := false } := by
  rw [Port.endPark, hk]

section events

variable {s : State} {p : Fin 4}

theorem exec_track0_park (hst : (s.port p).state = .parking) (hk : (s.port p).kind = .floppy) :
    exec (.track0Report p) s = .next ((s.updatePort p Port.endPark).offer p) := by
  have hfirst : ¬(s.portIs p .floppy .positioning && (s.port p).motion == .recalibrating) = true := by
    rw [portIs_eq_false (.inr (by rw [hst]; decide)), Bool.false_and]
    decide
  exact congrArg _ ((if_neg hfirst).trans (if_pos ((portIs_iff ..).2 ⟨hk, hst⟩)))

theorem exec_start (hst : (s.port p).state = .parking) (hk : (s.port p).kind = .cartridge) :
    exec (.startReport p) s = .next ((s.updatePort p Port.endPark).offer p) := congrArg _ (if_pos ((portIs_iff ..).2 ⟨hk, hst⟩))

/-- The state in which the retension of a port has ended. -/
def State.retensioned (s : State) (p : Fin 4) : State := s.updatePort p Port.endRetension

theorem exec_retensionComplete (hst : (s.port p).state = .retensioning) (hk : (s.port p).kind = .cartridge) :
    exec (.retensionCompleteReport p) s = .next (match (s.activeJob p).filter (fun j => j.state == .retensionWait) with
      | some j => (s.retensioned p).positionJob j
      | none => (s.retensioned p).offer p) := congrArg _ ((if_pos ((portIs_iff ..).2 ⟨hk, hst⟩)).trans rfl)

end events

end Sys2Proof.Machine

namespace Sys2Proof

open Machine

/-- Settles O46: the parking head steps on, and a port that has parked or retensioned goes on with its jobs. -/
theorem parkAndRetensionEnd : Obligations.ParkAndRetensionEnd := by
  refine ⟨fun s p => ⟨fun h => congrArg _ (if_neg (by simp [portIs_eq_false h])), fun h => congrArg _ (if_neg (by simp [portIs_eq_false h]))⟩,
    fun s p hs => ⟨fun n hst hn => ?steps, fun n hst hn => ?settles, fun hst hk => ?track0, fun hst hk => ?start, fun hst hk u hu => ?retension⟩⟩
  case steps =>
    rw [exec_step hn, State.updatePort, stepDue_outward (.inl hst)]
    rfl
  case settles =>
    rw [exec_settle (by rw [hn]; exact Option.some_ne_none _), updatePort_checkArrival]
    rw [Bool.eq_false_iff, ne_eq, arrived_iff]
    exact fun ⟨h, _⟩ => hst h
  case track0 =>
    refine ⟨_, exec_track0_park hst hk, ?_⟩
    rw [State.updatePort, endPark_floppy hk]
    exact offer_spec (u := s.setPort p _) hs.oneId p
  case start =>
    refine ⟨_, exec_start hst hk, ?_⟩
    rw [State.updatePort, endPark_cartridge hk]
    exact offer_spec (u := s.setPort p _) hs.oneId p
  case retension =>
    obtain rfl : u = s.retensioned p := hu
    have hone : (s.retensioned p).OneId := hs.oneId
    refine ⟨_, exec_retensionComplete hst hk, fun j m hj hwaits hm => ?_, fun hnone => ?_⟩
    · rw [hj, Option.filter_some, if_pos (by simpa using hwaits)]
      exact positionJob_spec hone (job_oneId hone (activeJob_mem hj).1) hm
    · have hfilter : (s.activeJob p).filter (fun j => j.state == .retensionWait) = none := by
        rw [Option.filter_eq_none_iff]
        exact fun j hj => by simpa using hnone j hj
      rw [hfilter]
      exact offer_spec hone p

end Sys2Proof

/-! The overtime and retension watchdog expiries (R11, R19, R22, R25, R66, R76). -/

namespace Sys2Proof.Machine

/-! ## The faulted port -/

theorem enterFaulted_eq (q : Port) (cause : FaultCause) : q.enterFaulted cause = { q.brokenOff with state := .faulted, fault := some cause } := by
  have h : q.enterFaulted cause = { q.breakOff with state := .faulted, fault := some cause } := rfl
  rw [h, brokenOff_eq]

theorem stopTape_eq (q : Port) : q.stopTape = { q with requests := q.requests ++ if q.kind = .cartridge then [.stopTape] else [] } := by
  have h : q.stopTape = if q.kind = .cartridge then q.ask .stopTape else q := by
    unfold Port.stopTape
    cases q.kind <;> rfl
  rw [h]
  split
  · rfl
  · rw [List.append_nil]

/-! ## The job that waits for the port -/

section waiter

variable {u t : State} {p : Fin 4} {j : Job}

/-- A port that is neither idle nor on a band is not offered. -/
theorem offers_rests (h : u.Offers t p) (hst : (u.port p).state ∉ [.idle, .onBand]) : t = u := by
  cases h with
  | rests | nothing => rfl
  | starts j m before after hst' => exact absurd hst' hst
  | passes j before after hst' => exact absurd hst' hst

theorem continues_faulted {e : FailReason} (h : u.Continues t j (.failed e)) (hst : (u.port j.drive).state = .faulted) : t = u :=
  offers_rests (h.offers (by simp [hst]) (by simp)) (by simp [hst])

theorem stopped_left (u : State) (j : Job) {k : Job} (hid : k.id = j.id) (e : Ending) :
    (u.stopped j k).left k e = { u with
      jobs := u.jobs.filter fun x => x.id != j.id
      waits := u.waits.filter (· != j.id)
      link := { u.link with
        reserved := u.link.reserved - 1, responses := u.link.responses ++ [k.notice e (u.bandEntries k)] } } := by
  have hleft := left_withJob u e (show k.id = k.id from rfl)
  have h : (u.stopped j k).left k e = ((u.withJob k).left k e).setWaits (u.waits.filter (· != j.id)) := rfl
  rw [h, hleft, ← hid]
  rfl

/-- A job that holds no channel and whose port has faulted leaves at once, with nothing after it. -/
theorem stop_faulted (hs : u.OneId) (hj : u.job j.id = some j) (hst : j.state ∈ [.queued, .positioning, .awaitingChannel, .reseating, .retensionWait])
    (hopen : j.ending = none) (hc : u.channelOf j.id = none) (hport : (u.port j.drive).state = .faulted) (e : FailReason) :
    (u.stopJob j (.failed e)).afterStop (j.decide (.failed e)) = { u with
      jobs := u.jobs.filter fun x => x.id != j.id
      waits := u.waits.filter (· != j.id)
      link := { u.link with
        reserved := u.link.reserved - 1
        responses := u.link.responses ++ [(j.decide (.failed e)).notice (.failed e) (u.bandEntries j)] } } := by
  obtain ⟨v, hstops, hleaves, -⟩ := stopJob_continues hs hj (.failed e)
  have hcontinues := hleaves (.inl hst)
  obtain ⟨w, hgives, hv⟩ := hstops.atOnce hst
  obtain rfl : w = u.stopped j (j.decide (.failed e)) := hgives.none hc
  rw [hopen, Option.getD_none] at hv hcontinues
  rw [stopped_left u j (decide_id ..), bandEntries_decide] at hv
  have hport' : (v.port (j.decide (.failed e)).drive).state = .faulted := by
    rw [decide_drive, hv]
    exact hport
  rw [continues_faulted hcontinues hport', hv]

variable {states : List JobState} {reason : FailReason}

theorem failWaiting_job (hj : u.activeJob p = some j) (h : j.state ∈ states) :
    u.failWaiting p states reason = (u.stopJob j (.failed reason)).afterStop (j.decide (.failed reason)) := by
  rw [State.failWaiting, hj]
  exact if_pos (by simpa using h)

theorem failWaiting_none (h : ∀ j, u.activeJob p = some j → j.state ∉ states) : u.failWaiting p states reason = u := by
  rw [State.failWaiting]
  cases hj : u.activeJob p with
  | none => rfl
  | some j => exact if_neg (by simpa using h j hj)

end waiter

/-! ## The expiries -/

section events

variable {s : State} {p : Fin 4} {n : Nat}

theorem exec_parkOvertime (hst : (s.port p).state = .parking) (hn : (s.port p).overtimeTimer = some n) :
    exec (.parkOvertime p) s = .next (s.setPort p (((s.port p).enterFaulted .parkOvertime).loseHead.stopTape)) :=
  congrArg _ (if_pos (by rw [hst, hn]; rfl))

theorem exec_positionOvertime (hst : (s.port p).state = .positioning) (hn : (s.port p).overtimeTimer = some n) :
    exec (.positionOvertime p) s = .next ((s.setPort p (((s.port p).enterFaulted .positionOvertime).loseHead)).failWaiting p
      [.positioning, .reseating] .positionFault) :=
  congrArg _ (if_pos (by rw [hst, hn]; rfl))

theorem exec_retensionExpiry (hst : (s.port p).state = .retensioning) (hn : (s.port p).retensionWatchdog = some n) :
    exec (.retensionWatchdogExpiry p) s = .next ((s.setPort p (((s.port p).enterFaulted .retensionOvertime).stopTape)).failWaiting p
      [.retensionWait] .retensionFault) :=
  congrArg _ (if_pos (by rw [hst, hn]; rfl))

end events

end Sys2Proof.Machine

namespace Sys2Proof

open Machine

/-- Settles O47: the port faults, and with it the job that waits for it. -/
theorem overtimeFaults : Obligations.OvertimeFaults := by
  intro s p faulted hs hfaulted
  have heq : ∀ cause, (s.port p).enterFaulted cause = { faulted with fault := some cause } := fun cause => by
    rw [enterFaulted_eq, hfaulted]
    rfl
  have hkind : faulted.kind = (s.port p).kind := by rw [hfaulted]
  have hone : ∀ q : Port, (s.setPort p q).OneId := fun _ => hs.oneId
  have hposition : ((s.port p).enterFaulted .positionOvertime).loseHead
      = { faulted with fault := some .positionOvertime, headCylinder := none } := by
    rw [heq]
    rfl
  have hretension : (s.port p).kind = .cartridge → ((s.port p).enterFaulted .retensionOvertime).stopTape
      = { faulted with fault := some .retensionOvertime, requests := faulted.requests ++ [.stopTape] } := fun hk => by
    rw [heq, stopTape_eq]
    dsimp only
    rw [hkind, if_pos hk]
  have hport : ∀ q : Port, q.state = .faulted → ∀ j, s.activeJob p = some j → ((s.setPort p q).port j.drive).state = .faulted := fun q hq j hj => by
    obtain ⟨-, hdrive, -⟩ := activeJob_mem hj
    rw [hdrive]
    exact (congrArg Port.state (Four.get_set_self ..)).trans hq
  have hstate : faulted.state = .faulted := by rw [hfaulted]
  have hjob : ∀ (q : Port) (j : Job), s.activeJob p = some j → (s.setPort p q).job j.id = some j := fun q j hj =>
    job_oneId (hone q) (activeJob_mem hj).1
  refine ⟨fun n hst hn => ?park, fun n j hst hn hj hjst hopen hc => ?position, fun n j u hst hn hj hjst hu => ?held, fun n hst hn hnone => ?nobody,
    fun n j hst hk hn hj hjst hopen hc => ?retension, fun n hst hk hn hnone => ?nobodyWaits⟩
  case park =>
    rw [exec_parkOvertime hst hn, heq, stopTape_eq, State.setPort, ← hkind]
    rfl
  case position =>
    have hmem : j.state ∈ [JobState.positioning, .reseating] := by simpa using hjst
    have hat : j.state ∈ [JobState.queued, .positioning, .awaitingChannel, .reseating, .retensionWait] := by
      rcases hjst with h | h <;> rw [h] <;> decide
    rw [exec_positionOvertime hst hn, hposition, failWaiting_job (u := s.setPort p _) hj hmem,
      stop_faulted (hone _) (hjob _ j hj) hat hopen hc (hport { faulted with fault := some .positionOvertime, headCylinder := none } hstate j hj)]
    rfl
  case held =>
    subst hu
    have hmem : j.state ∈ [JobState.positioning, .reseating] := by simpa using hjst
    have hat : j.state ∈ [JobState.queued, .positioning, .awaitingChannel, .reseating, .retensionWait] := by
      rcases hjst with h | h <;> rw [h] <;> decide
    rw [exec_positionOvertime hst hn, hposition, failWaiting_job (u := s.setPort p _) hj hmem]
    obtain ⟨v, hstops, hleaves, -⟩ := stopJob_continues (hone _) (hjob _ j hj) (.failed .positionFault)
    exact ⟨_, v, rfl, hstops, hleaves (.inl hat)⟩
  case nobody =>
    rw [exec_positionOvertime hst hn, hposition, failWaiting_none (u := s.setPort p _) fun j hj => by simpa using hnone j hj]
    rfl
  case retension =>
    have hmem : j.state ∈ [JobState.retensionWait] := by simpa using hjst
    have hat : j.state ∈ [JobState.queued, .positioning, .awaitingChannel, .reseating, .retensionWait] := by rw [hjst]; decide
    rw [exec_retensionExpiry hst hn, hretension hk, failWaiting_job (u := s.setPort p _) hj hmem,
      stop_faulted (hone _) (hjob _ j hj) hat hopen hc (hport { faulted with fault := some .retensionOvertime, requests := faulted.requests ++ [.stopTape] } hstate j hj)]
    rfl
  case nobodyWaits =>
    rw [exec_retensionExpiry hst hn, hretension hk, failWaiting_none (u := s.setPort p _) fun j hj => by simpa using hnone j hj]
    rfl

end Sys2Proof

/-! The stream watchdog (R15, R17, R25, R70, R77, R96, R98, R110). -/

namespace Sys2Proof.Machine

/-! ## The record of a faulted pass -/

section record

variable {j : Job}

theorem breakHold_remaining (j : Job) : j.breakHold.holdRemaining = 0 := by
  unfold Job.breakHold
  split
  · rfl
  · omega

theorem breakHold_broken (h : j.holdRemaining = 0) : j.breakHold = j := if_neg (by omega)

theorem decide_eq (j : Job) (e : Ending) : j.decide e = { j.breakHold with ending := some (j.ending.getD e) } := by
  unfold Job.decide
  cases h : j.ending with
  | none => rfl
  | some x =>
    show j.breakHold = { j.breakHold with ending := some x }
    rw [← h, ← breakHold_ending]

theorem endFaulted_id (j : Job) : j.endFaulted.id = j.id := breakHold_id j

theorem endFaulted_decide (j : Job) (e : Ending) : j.endFaulted.decide e = { j.endFaulted with ending := some (j.ending.getD e) } := by
  have hopen : j.endFaulted.ending = j.ending := breakHold_ending j
  rw [decide_eq, hopen, breakHold_broken (j := j.endFaulted) (breakHold_remaining j)]

/-- The record of a job that a second fault in a row fails. -/
def Job.endFailed (j : Job) (kind : PortKind) : Job :=
  { j.endFaulted with ending := some (j.ending.getD (.failed (if kind = .cartridge then .noMark else .noIndex))) }

theorem endFailed_id (j : Job) (kind : PortKind) : (j.endFailed kind).id = j.id := breakHold_id j

theorem watchdogReason_eq (kind : PortKind) : watchdogReason kind = if kind = .cartridge then FailReason.noMark else .noIndex := by
  cases kind <;> rfl

end record

/-! ## The fault -/

section fault

variable {s u : State} {p : Fin 4} {j k : Job} {c : ChannelName} {n : Nat}

/-- The channel of a pass that is cut off is released, its sector in receipt discarded, and the job goes on. -/
theorem releaseOf_goesOn (hs : u.OneId) (hk : u.OneKey) {id : Nat} (hid : k.id = id) (hj : u.job id = some k) (hc : u.channelOf id = some c)
    (hw : id ∉ u.waits) : ∃ v, (u.setChannel c (u.channel c).discarded).Released v c ∧ v.GoesOn ((u.releaseOf id).checkDrained id) k := by
  subst hid
  have hclear : ((u.setChannel c (u.channel c).discarded).channel c).receipt = none := by
    rw [channel_setChannel]
    exact discarded_receipt _
  have hspec := release_spec (j := k) (setChannel_oneId hs c (u.channel c).discarded) (setChannel_oneKey hk c (u.channel c).discarded)
    (by rw [setChannel_job]; exact hj) hclear (by rw [setChannel_waits]; exact hw)
  rw [release_discarded] at hspec
  rwa [State.releaseOf, hc]

theorem exec_watchdog (hst : (s.port p).state = .streaming) (hn : (s.port p).streamWatchdog = some n) (hj : s.activeJob p = some j) :
    exec (.streamWatchdogExpiry p) s = .next (s.endPassFaulted j) := by
  refine congrArg _ ((if_pos (by rw [hst, hn]; rfl)).trans ?_)
  rw [hj]

/-- The state of a pass that has ended as a fault. -/
def State.passFaulted (s : State) (j : Job) : State :=
  { s.withJob j.endFaulted with ports := s.ports.set j.drive (s.port j.drive).streamEnded }

/-- The state of a pass whose fault, a second one, has faulted the port and failed the job. -/
def State.passFailed (s : State) (j : Job) : State :=
  { s.withJob (j.endFailed (s.port j.drive).kind) with
    ports := s.ports.set j.drive { (s.port j.drive).streamEnded.brokenOff with state := .faulted, fault := some .repeatedWatchdog } }

theorem endPassFaulted_first (hs : s.OneId) (hj : s.job j.id = some j) (hst : (s.port j.drive).state = .streaming) (h0 : j.consecutiveFaults = 0) :
    s.endPassFaulted j = ((s.passFaulted j).releaseOf j.id).checkDrained j.id := by
  rw [State.endPassFaulted, endStream_withJob (k := j.endFaulted) hs hj rfl (breakHold_id j) hst]
  dsimp only
  rw [if_neg (by omega)]
  rfl

theorem endPassFaulted_second (hs : s.OneId) (hj : s.job j.id = some j) (hst : (s.port j.drive).state = .streaming) (h1 : 1 ≤ j.consecutiveFaults) :
    s.endPassFaulted j = ((s.passFailed j).releaseOf j.id).checkDrained j.id := by
  have hport : (s.passFaulted j).port j.drive = (s.port j.drive).streamEnded := Four.get_set_self ..
  have hfailed : ((s.passFaulted j).updatePort j.drive fun p => p.enterFaulted .repeatedWatchdog).updateJob j.id
      (fun k => k.decide (.failed (watchdogReason ((s.passFaulted j).port j.drive).kind))) = s.passFailed j := by
    rw [State.updatePort, hport, enterFaulted_eq, watchdogReason_eq]
    have hjob := updateJob_withJob s (f := fun k => k.decide (.failed (if (s.port j.drive).kind = .cartridge then .noMark else .noIndex)))
      (endFaulted_id j) (endFaulted_decide j _) (endFaulted_id j)
    unfold State.passFailed
    rw [Job.endFailed, ← hjob]
    exact congrArg (State.setPorts ((s.withJob j.endFaulted).updateJob j.id _)) (Four.set_set ..)
  rw [State.endPassFaulted, endStream_withJob (k := j.endFaulted) hs hj rfl (breakHold_id j) hst]
  dsimp only
  rw [if_pos h1, ← hfailed]
  rfl

end fault

end Sys2Proof.Machine

namespace Sys2Proof

open Machine

/-- Settles O48: the fault is counted, the channel released, and the job drains or fails. -/
theorem watchdogFaults : Obligations.WatchdogFaults := by
  intro s u p c j counted failed n ended hst hn hj hc hw hs ht hended hcounted hfailed
  obtain ⟨hmem, hdrive, -⟩ := activeJob_mem hj
  have hjob := job_oneId hs.oneId hmem
  obtain rfl : counted = j.endFaulted := hcounted
  obtain rfl : ended = (s.port p).streamEnded := hended
  subst hdrive
  obtain rfl : failed = j.endFailed (s.port j.drive).kind := hfailed
  refine ⟨fun h0 hu => ?_, fun h1 hu => ?_⟩
  · obtain rfl : u = s.passFaulted j := hu
    obtain ⟨v, hreleased, hgoes⟩ := releaseOf_goesOn (u := s.passFaulted j) (withJob_oneId hs.oneId _) ht.oneKey (endFaulted_id j)
      (job_withJob hjob (endFaulted_id j)) hc hw
    refine ⟨_, v, exec_watchdog hst hn hj, hreleased, ?_⟩
    rwa [endPassFaulted_first hs.oneId hjob hst h0]
  · obtain rfl : u = s.passFailed j := hu
    obtain ⟨v, hreleased, hgoes⟩ := releaseOf_goesOn (u := s.passFailed j) (withJob_oneId hs.oneId _) ht.oneKey (endFailed_id j _)
      (job_withJob hjob (endFailed_id j _)) hc hw
    refine ⟨_, v, exec_watchdog hst hn hj, hreleased, ?_⟩
    rwa [endPassFaulted_second hs.oneId hjob hst h1]

end Sys2Proof

/-! Good headers (R99, R100, R103, R104, R112). -/

namespace Sys2Proof.Machine

/-! ## The channel that sees a stream, and its places -/

section channel

theorem streamChannel_a (s : State) (p : Fin 4) : s.streamChannel p = some .a ↔ s.channelA.sees p = true := by
  unfold State.streamChannel
  cases s.channelA.sees p <;> cases s.channelB.sees p <;> simp

theorem streamChannel_b (s : State) (p : Fin 4) : s.streamChannel p = some .b ↔ s.channelB.sees p = true ∧ ¬s.channelA.sees p = true := by
  unfold State.streamChannel
  cases s.channelA.sees p <;> cases s.channelB.sees p <;> simp

theorem streamChannel_none (s : State) (p : Fin 4) : s.streamChannel p = none ↔ ¬s.channelA.sees p = true ∧ ¬s.channelB.sees p = true := by
  unfold State.streamChannel
  cases s.channelA.sees p <;> cases s.channelB.sees p <;> simp

variable (ch : Channel)

theorem firstRule_iff : ch.firstRule = true ↔ ∃ parameters, ch.parameters = some parameters ∧ parameters.kind = .floppy ∧ parameters.startRule = .first := by
  unfold Channel.firstRule
  cases ch.parameters <;> simp

theorem freePlace_one : ch.freePlace = some .one ↔ ch.placeOne.condition = .free := by
  unfold Channel.freePlace
  by_cases h1 : ch.placeOne.condition = .free <;> by_cases h2 : ch.placeTwo.condition = .free <;> simp [h1, h2]

theorem freePlace_two : ch.freePlace = some .two ↔ ch.placeTwo.condition = .free ∧ ch.placeOne.condition ≠ .free := by
  unfold Channel.freePlace
  by_cases h1 : ch.placeOne.condition = .free <;> by_cases h2 : ch.placeTwo.condition = .free <;> simp [h1, h2]

end channel

/-! ## The header taken -/

section taken

variable {s : State} {p : Fin 4} {c : ChannelName} {ch : Channel} {j : Job} {m : Medium} {h : Header}

/-- The states in which a channel takes a good header: it captures, or begins its FIRST capture with it. -/
structure State.TakesHeader (s : State) (c : ChannelName) (ch : Channel) (sector : Nat) : Prop where
  receipt : ch.receipt = none
  state : (s.channel c = ch ∧ ch.state = .capturing ∧ (ch.startId ≠ some sector ∨ (s.channel c).firstRule = false))
    ∨ ((s.channel c).state = .armed ∧ (s.channel c).firstRule = true ∧ ch = { s.channel c with state := .capturing, startId := some sector })

theorem goodHeaderAt_takes (ht : s.TakesHeader c ch h.sector) : s.goodHeaderAt c h = (s.setChannel c ch).takeGoodHeader c h := by
  obtain ⟨hr, ⟨rfl, hst, hid⟩ | ⟨hst, hrule, rfl⟩⟩ := ht
  · have hnot : ((s.channel c).firstRule && (s.channel c).startId == some h.sector) = false := by
      rw [Bool.and_eq_false_iff, beq_eq_false_iff_ne]
      exact hid.symm
    rw [State.goodHeaderAt, hst]
    dsimp only
    rw [meetReceipt_none hr, if_pos rfl, hnot, if_neg (by decide), setChannel_self]
  · rw [State.goodHeaderAt, hst]
    exact if_pos hrule

theorem exec_goodHeader_takes {cylinder head sector size : Nat} (hc : s.streamChannel p = some c) (ht : s.TakesHeader c ch sector) :
    exec (.goodHeader p cylinder head sector size) s = .next ((s.setChannel c ch).takeGoodHeader c ⟨cylinder, head, sector, size⟩) :=
  (exec_goodHeader hc ..).trans (congrArg _ (goodHeaderAt_takes ht))

theorem takeGoodHeader_eq (ho : ch.owner = some j.id) (hj : s.job j.id = some j) (hm : s.medium j.handle = some m) :
    (s.setChannel c ch).takeGoodHeader c h
      = if ch.headersTaken < 40 then (s.setChannel c { ch with headersTaken := ch.headersTaken + 1 }).judgeHeader c j m h (ch.headersTaken + 1)
        else (s.setChannel c ch).countStray j := by
  have hpass : (s.setChannel c ch).passJob c = some j :=
    passJob_of_owner (by rw [channel_setChannel]; exact ho) (by rw [setChannel_job]; exact hj)
  rw [State.takeGoodHeader, hpass]
  dsimp only
  rw [setChannel_medium, hm, channel_setChannel, updateChannel_eq, channel_setChannel, setChannel_setChannel]
  rfl

/-- A change of the job's record beside the channel's. -/
theorem updateJob_beside (hs : s.OneId) (hj : s.job j.id = some j) {f : Job → Job} {k : Job} (hf : f j = k) (hid : k.id = j.id) :
    (s.setChannel c ch).updateJob j.id f = (s.withJob k).setChannel c ch := by
  rw [updateJob_setChannel, updateJob_eq_withJob hs hj hf hid]

theorem countStray_eq (hs : s.OneId) (hj : s.job j.id = some j) :
    (s.setChannel c ch).countStray j = (s.withJob { j with strayHeaders := satSucc 65535 j.strayHeaders }).setChannel c ch :=
  updateJob_beside hs hj rfl rfl

end taken

/-! ## The header judged -/

section judged

variable {s : State} {c : ChannelName} {ch : Channel} {j seen : Job} {m : Medium} {h : Header} {g : Geometry} {position : Nat}

theorem judgePlace_stray (hid : seen.id = j.id) (h1 : g.hasId h.sector = false) :
    ((s.withJob seen).setChannel c ch).judgePlace c j g h position
      = (s.withJob { seen with strayHeaders := satSucc 65535 seen.strayHeaders }).setChannel c ch := by
  rw [State.judgePlace, h1]
  refine (if_pos rfl).trans ?_
  rw [updateJob_setChannel, updateJob_withJob s hid rfl hid]

theorem judgePlace_size (hid : seen.id = j.id) (h1 : g.hasId h.sector = true) (h2 : h.size ≠ g.sizeCode) :
    ((s.withJob seen).setChannel c ch).judgePlace c j g h position
      = (s.withJob { seen with sizeMismatches := satSucc 65535 seen.sizeMismatches }).setChannel c ch := by
  rw [State.judgePlace, h1]
  refine (if_neg (by decide)).trans ((if_pos (by simpa using h2)).trans ?_)
  rw [updateJob_setChannel, updateJob_withJob s hid rfl hid]

theorem judgePlace_captures (h1 : g.hasId h.sector = true) (h2 : h.size = g.sizeCode) :
    ((s.withJob seen).setChannel c ch).judgePlace c j g h position = ((s.withJob seen).setChannel c ch).capture c j h position := by
  rw [State.judgePlace, h1]
  exact (if_neg (by decide)).trans (if_neg (by simpa using h2))

theorem capture_overrun (hid : seen.id = j.id) (hfree : ch.freePlace = none) :
    ((s.withJob seen).setChannel c ch).capture c j h position
      = (s.withJob { seen with overrun := satSucc 65535 seen.overrun }).setChannel c ch := by
  rw [State.capture, channel_setChannel, hfree]
  dsimp only
  rw [updateJob_setChannel, updateJob_withJob s hid rfl hid]

theorem capture_placed {n : PlaceName} (hfree : ch.freePlace = some n) :
    ((s.withJob seen).setChannel c ch).capture c j h position
      = (s.withJob seen).setChannel c { ch.setCondition n .receiving with receipt := some ⟨n, h.sector, h.size, position, false⟩ } := by
  rw [State.capture, channel_setChannel, hfree]
  dsimp only
  rw [updateChannel_eq, channel_setChannel, setChannel_setChannel]

/-- The record of a job that has seen a header of its band. -/
def Job.sawHeader (j : Job) (m : Medium) (sector : Nat) : Job :=
  { j with layout := if j.layout.length < 40 then j.layout ++ [sector] else j.layout
           verification := if m.kind = .cartridge then j.verification else .verified }

theorem noteLayout_eq (j : Job) (sector : Nat) :
    j.noteLayout sector = { j with layout := if j.layout.length < 40 then j.layout ++ [sector] else j.layout } := by
  unfold Job.noteLayout
  by_cases h : j.layout.length < 40
  · rw [if_pos h]
    exact if_pos h
  · rw [if_neg h]
    exact if_neg h

theorem judgeHeader_inBand (hs : s.OneId) (hj : s.job j.id = some j) (hb : m.kind = .cartridge ∨ (h.cylinder = j.cylinder ∧ h.head = j.head)) :
    (s.setChannel c ch).judgeHeader c j m h position
      = ((s.withJob (j.sawHeader m h.sector)).setChannel c ch).judgePlace c j m.geometry h position := by
  refine (if_pos (by simpa using hb)).trans (congrArg (fun t : State => t.judgePlace c j m.geometry h position) ?_)
  refine updateJob_beside hs hj ?_ rfl
  rw [noteLayout_eq, Job.sawHeader]
  cases m.kind <;> rfl

theorem judgeHeader_foreign (hs : s.OneId) (hj : s.job j.id = some j) (hk : m.kind ≠ .cartridge)
    (hb : ¬(h.cylinder = j.cylinder ∧ h.head = j.head)) (hv : j.verification = .verified) :
    (s.setChannel c ch).judgeHeader c j m h position
      = (s.withJob { j with foreignHeaders := satSucc 65535 j.foreignHeaders }).setChannel c ch := by
  have hcounts : (s.setChannel c ch).judgeHeader c j m h position
      = (s.setChannel c ch).updateJob j.id fun k => { k with foreignHeaders := satSucc 65535 k.foreignHeaders } := by
    refine (if_neg (by simpa [hk] using hb)).trans ?_
    rw [hv]
  rw [hcounts]
  exact updateJob_beside hs hj rfl rfl

end judged

end Sys2Proof.Machine

namespace Sys2Proof

open Machine

/-- Settles O49: the steps of R104 in their order. -/
theorem goodHeaderJudged : Obligations.GoodHeaderJudged := by
  refine ⟨fun s p sees hsees => ⟨?a, ?b, ?none⟩, fun ch => ⟨firstRule_iff ch, freePlace_one ch, freePlace_two ch, fun condition => ⟨rfl, rfl⟩⟩,
    fun s p c cylinder head sector size hc hst hrule => ?passed, fun s p c ch j seen m cylinder head sector size hc hr hstate ho hj hs hm => ?taken⟩
  case a => rw [streamChannel_a, sees_iff, hsees]; rfl
  case b => rw [streamChannel_b, sees_iff, sees_iff, hsees, hsees]; rfl
  case none => rw [streamChannel_none, sees_iff, sees_iff, hsees, hsees]; rfl
  case passed =>
    rw [exec_goodHeader hc, State.goodHeaderAt, hst]
    exact congrArg _ (if_neg (by rw [hrule]; decide))
  case taken =>
    have hone := hs.oneId
    rw [exec_goodHeader_takes hc ⟨hr, hstate⟩, takeGoodHeader_eq ho hj hm]
    refine ⟨fun hfull => ?_, fun hroom hb hseen counted taken hcase => ?_, fun hroom hk hb hv => ?_⟩
    · rw [if_neg (by omega), countStray_eq hone hj]
      rfl
    · obtain rfl : seen = j.sawHeader m sector := hseen
      rw [if_pos hroom, judgeHeader_inBand hone hj hb]
      refine congrArg _ ?_
      rcases hcase with ⟨rfl, rfl, hid⟩ | ⟨hid, ⟨rfl, rfl, hsize⟩ | ⟨hsize, ⟨rfl, rfl, hfree⟩ | ⟨n, hfree, rfl, rfl⟩⟩⟩
      · exact judgePlace_stray rfl (Bool.eq_false_iff.2 fun h => hid ((hasId_iff ..).1 h))
      · exact judgePlace_size rfl ((hasId_iff ..).2 hid) hsize
      · rw [judgePlace_captures ((hasId_iff ..).2 hid) hsize]
        exact capture_overrun rfl hfree
      · rw [judgePlace_captures ((hasId_iff ..).2 hid) hsize, capture_placed (ch := { ch with headersTaken := ch.headersTaken + 1 }) hfree]
        cases n <;> rfl
    · rw [if_pos hroom, judgeHeader_foreign hone hj hk hb hv]
      rfl

end Sys2Proof

/-! The wrong band in a good header (R63, R65, R67, R68, R96, R98). -/

namespace Sys2Proof.Machine

section wrong

variable {s t u v : State} {p : Fin 4} {c : ChannelName} {ch : Channel} {j : Job} {m : Medium} {h : Header} {position : Nat}

/-- The state in which a pass has ended uncounted, its hold broken and its channel, with the record `ch`, not yet released. -/
def State.passDropped (s : State) (j : Job) (c : ChannelName) (ch : Channel) : State :=
  ({ s.withJob j.breakHold with ports := s.ports.set j.drive (s.port j.drive).streamEnded } : State).setChannel c ch

theorem endPassWrongBand_eq (hs : s.OneId) (hj : s.job j.id = some j) (hst : (s.port j.drive).state = .streaming) (hr : ch.receipt = none) :
    (s.setChannel c ch).endPassWrongBand c j = (s.passDropped j c ch).release c := by
  have hended : ((s.setChannel c ch).updatePort j.drive Port.endStream).updateJob j.id Job.breakHold = s.passDropped j c ch := by
    rw [updatePort_setChannel, updateJob_setChannel, endStream_withJob (k := j.breakHold) hs hj rfl (breakHold_id j) hst]
    rfl
  have hdiscard : (s.passDropped j c ch).discardSector c = s.passDropped j c ch := by
    rw [State.discardSector, updateChannel_eq, State.passDropped, channel_setChannel, setChannel_setChannel, dropReceipt_of_none hr]
  rw [State.endPassWrongBand, hended, hdiscard]

/-- A release asks for no field of the pass. -/
theorem released_congr {ch' : Channel} (hf : ch'.freed = ch.freed) (h : (u.setChannel c ch').Released v c) : (u.setChannel c ch).Released v c := by
  unfold State.Released at h ⊢
  rw [setChannel_waits, channel_setChannel, setChannel_setChannel, hf] at h
  rwa [setChannel_waits, channel_setChannel, setChannel_setChannel]

theorem passDropped_job (hj : s.job j.id = some j) : (s.passDropped j c ch).job j.id = some j.breakHold := by
  rw [State.passDropped, setChannel_job]
  exact job_withJob hj (breakHold_id j)

theorem passDropped_keeps (hw : j.id ∉ s.waits) : (s.passDropped j c ch).Keeps ((s.passDropped j c ch).release c) j.id :=
  release_keeps c (by rw [State.passDropped, setChannel_waits]; exact hw)

theorem passDropped_oneId (hs : s.OneId) : (s.passDropped j c ch).OneId := by
  refine setChannel_oneId ?_ c ch
  exact withJob_oneId hs j.breakHold

theorem passDropped_oneKey (hk : s.OneKey) : (s.passDropped j c ch).OneKey := by
  refine setChannel_oneKey ?_ c ch
  exact hk

theorem recalibrateRequest_eq (q : Port) (band : BandAddress) : q.recalibrateRequest band = { q with
    state := .positioning, band := some band, headCylinder := none, overtimeTimer := some 10000, positioned := false
    motion := .recalibrating, stepped := true, settleTimer := some q.settleTime, stepTimer := some 3
    requests := q.requests ++ [.stepOut] } := by
  rw [Port.recalibrateRequest, startMotion_unknown rfl]
  rfl

theorem judgeHeader_retries (hk : m.kind ≠ .cartridge) (hb : ¬(h.cylinder = j.cylinder ∧ h.head = j.head)) (hv : j.verification = .unverified) :
    t.judgeHeader c j m h position = t.retryBand c j := by
  refine (if_neg (by simpa [hk] using hb)).trans ?_
  rw [hv]

theorem judgeHeader_fails (hk : m.kind ≠ .cartridge) (hb : ¬(h.cylinder = j.cylinder ∧ h.head = j.head)) (hv : j.verification = .retried) :
    t.judgeHeader c j m h position = t.failBand c j := by
  refine (if_neg (by simpa [hk] using hb)).trans ?_
  rw [hv]

/-- The first wrong-band header: the port recalibrates. -/
theorem retryBand_eq (hs : s.OneId) (hj : s.job j.id = some j) (hst : (s.port j.drive).state = .streaming) (hr : ch.receipt = none)
    (hw : j.id ∉ s.waits) (hv : (s.passDropped j c ch).release c = v) :
    (s.setChannel c ch).retryBand c j = { v.withJob { j.breakHold with verification := .retried, state := .positioning } with
      ports := v.ports.set j.drive ((v.port j.drive).recalibrateRequest j.band) } := by
  subst hv
  have hkeeps := passDropped_keeps (c := c) (ch := ch) hw
  have hupdate := updateJob_eq_withJob (hkeeps.oneId (passDropped_oneId hs)) (j := j.breakHold)
    (k := { j.breakHold with verification := .retried, state := .positioning })
    (by rw [breakHold_id]; exact hkeeps.job.trans (passDropped_job hj)) (f := fun j => { j with verification := .retried, state := .positioning })
    rfl rfl
  rw [breakHold_id] at hupdate
  rw [State.retryBand, endPassWrongBand_eq hs hj hst hr]
  dsimp only
  rw [hupdate]
  rfl

/-- The record of a job that a second wrong-band header fails. -/
def Job.bandFailed (j : Job) : Job := { j.breakHold with ending := some (j.ending.getD (.failed .wrongBand)), phase := .draining }

theorem decide_breakHold (j : Job) (e : Ending) : j.breakHold.decide e = { j.breakHold with ending := some (j.ending.getD e) } := by
  rw [decide_eq, breakHold_ending, breakHold_broken (breakHold_remaining j)]

/-- The second wrong-band header: the job fails, when its readings are taken. -/
theorem failBand_goesOn (hs : s.OneId) (hk : s.OneKey) (hj : s.job j.id = some j) (hst : (s.port j.drive).state = .streaming) (hr : ch.receipt = none)
    (hw : j.id ∉ s.waits) (hv : (s.passDropped j c ch).release c = v) :
    (v.withJob j.bandFailed).GoesOn ((s.setChannel c ch).failBand c j) j.bandFailed := by
  subst hv
  have hkeeps := passDropped_keeps (c := c) (ch := ch) hw
  have hone := hkeeps.oneId (passDropped_oneId hs)
  have hkey := hkeeps.oneKey (passDropped_oneKey hk)
  have hjob := hkeeps.job.trans (passDropped_job hj)
  have hid : j.bandFailed.id = j.id := breakHold_id j
  have hupdate := updateJob_eq_withJob hone (j := j.breakHold) (k := j.bandFailed) (by rw [breakHold_id]; exact hjob)
    (f := fun j => { j.decide (.failed .wrongBand) with phase := .draining }) (by rw [decide_breakHold]; rfl) (by rw [hid, breakHold_id])
  rw [breakHold_id] at hupdate
  have hdrained := checkDrained_spec (u := ((s.passDropped j c ch).release c).withJob j.bandFailed) (j := j.bandFailed) (withJob_oneId hone _) hkey
    (by rw [hid]; exact job_withJob hjob hid)
  rw [State.failBand, endPassWrongBand_eq hs hj hst hr]
  dsimp only
  rw [hupdate, ← hid]
  exact hdrained

end wrong

end Sys2Proof.Machine

namespace Sys2Proof

open Machine

/-- Settles O50: the pass ends, and the job positions again or fails. -/
theorem wrongBandHeader : Obligations.WrongBandHeader := by
  intro s u p c ch j failed m cylinder head sector size hc hr hstate hroom ho hj hs ht hm hk hfloppy hst hd hw hb hu hfailed
  subst hd
  obtain rfl : failed = j.bandFailed := hfailed
  have hended : (s.port j.drive).streamEnded = { s.port j.drive with state := .onBand, streamWatchdog := none } := by
    rw [Port.streamEnded, hfloppy, if_neg (by decide), List.append_nil, ← hfloppy]
  obtain rfl : u = s.passDropped j c ch := by rw [hu, State.passDropped, hended]
  have htaken : (s.passDropped j c { ch with headersTaken := ch.headersTaken + 1 }).Released
      ((s.passDropped j c { ch with headersTaken := ch.headersTaken + 1 }).release c) c := by
    refine release_released (passDropped_oneId hs.oneId) ?_
    rw [State.passDropped, channel_setChannel]
    exact hr
  have hreleased : (s.passDropped j c ch).Released ((s.passDropped j c { ch with headersTaken := ch.headersTaken + 1 }).release c) c :=
    released_congr (ch' := { ch with headersTaken := ch.headersTaken + 1 }) rfl htaken
  have hexec := exec_goodHeader_takes (cylinder := cylinder) (head := head) (size := size) hc ⟨hr, hstate⟩
  rw [takeGoodHeader_eq ho hj hm, if_pos hroom] at hexec
  refine ⟨fun hv => ⟨_, hreleased, ?_⟩, fun hv => ⟨_, _, hexec, hreleased, ?_⟩⟩
  · rw [hexec, judgeHeader_retries hk hb hv, retryBand_eq (ch := { ch with headersTaken := ch.headersTaken + 1 }) hs.oneId hj hst hr hw rfl,
      recalibrateRequest_eq]
    rfl
  · rw [judgeHeader_fails hk hb hv]
    exact failBand_goesOn (ch := { ch with headersTaken := ch.headersTaken + 1 }) hs.oneId ht.oneKey hj hst hr hw rfl

end Sys2Proof

/-! A bad header, a data mark and an absent data field (R16, R85, R93, R101 to R106, R110, R112, R122). -/

namespace Sys2Proof.Machine

/-! ## The header-only reading -/

theorem headerOnlyCount_eq (s : State) : s.headerOnlyCount = s.input.countP fun r => decide (r.data = none) := by
  unfold State.headerOnlyCount
  congr 1
  funext r
  cases r.data <;> rfl

section absent

variable {s u : State} {p : Fin 4} {c : ChannelName} {ch : Channel} {j k : Job} {r : Receipt} {parameters : PassParameters}

/-- The channel with the sector in receipt given up and its landing place FREE. -/
def Channel.absented (ch : Channel) (r : Receipt) : Channel := { ch.setCondition r.place .free with receipt := none }

/-- The header-only reading of a sector in receipt. -/
def Receipt.headerOnly (r : Receipt) (j : Job) (pass : Nat) : Reading :=
  { key := ⟨j.handle, j.cylinder, j.head, r.sector⟩, size := r.size, data := none, uncertain := [], moreUncertain := false, pass := pass
    position := r.position }

theorem dropped_count (s : State) (c : ChannelName) : (s.updateChannel c Channel.dropReceipt).headerOnlyCount = s.headerOnlyCount := by
  rw [updateChannel_eq, State.headerOnlyCount, setChannel_input]
  rfl

theorem placeHeaderOnly_room (hr : (s.channel c).receipt = some r) (hp : (s.channel c).parameters = some parameters) (h : s.headerOnlyCount < 60) :
    s.placeHeaderOnly c j r = ({ s with input := s.input ++ [r.headerOnly j parameters.pass] } : State).setChannel c
      { (s.channel c).absented r with readingsPlaced := (s.channel c).readingsPlaced + 1 } := by
  have hpass : (s.channel c).passNumber = parameters.pass := by rw [Channel.passNumber, hp]
  refine (if_pos (by rw [dropped_count]; exact h)).trans ?_
  rw [hpass, updateChannel_eq, updateChannel_eq, channel_setChannel, setChannel_setChannel, dropReceipt_some hr, setChannel_input]
  rcases r with ⟨place, sector, size, position, mark⟩
  cases c <;> cases place <;> rfl

theorem placeHeaderOnly_full (hs : s.OneId) (hj : s.job j.id = some j) (hr : (s.channel c).receipt = some r) (h : 60 ≤ s.headerOnlyCount) :
    s.placeHeaderOnly c j r = (s.withJob { j with overrun := satSucc 65535 j.overrun }).setChannel c ((s.channel c).absented r) := by
  refine (if_neg (by rw [dropped_count]; exact Nat.not_lt.2 h)).trans ?_
  rw [updateChannel_eq, dropReceipt_some hr]
  exact updateJob_beside hs hj rfl rfl

theorem placeHeaderOnly_watched (s : State) (p : Fin 4) (c : ChannelName) (j : Job) (r : Receipt) :
    (s.watched p).placeHeaderOnly c j r = (s.placeHeaderOnly c j r).watched p := by
  unfold State.placeHeaderOnly
  dsimp only
  rw [dropped_count, dropped_count, show (s.watched p).headerOnlyCount = s.headerOnlyCount from rfl]
  split <;> cases c <;> rfl

/-! ## What a sector found absent leaves of the stream -/

/-- Two records of a channel with the same stream and pass. -/
structure Channel.SameStream (a b : Channel) : Prop where
  stream : a.port = b.port ∧ a.state = b.state
  owner : a.owner = b.owner
  pass : a.parameters = b.parameters ∧ a.startId = b.startId
  pending : a.endPending = b.endPending

theorem absented_stream (ch : Channel) (r : Receipt) : (ch.absented r).SameStream ch := by
  rcases r with ⟨place, sector, size, position, mark⟩
  cases place <;> exact ⟨⟨rfl, rfl⟩, rfl, ⟨rfl, rfl⟩, rfl⟩

theorem absented_receipt (ch : Channel) (r : Receipt) : (ch.absented r).receipt = none := rfl

theorem streamChannel_setChannel {v : Channel} (h : v.SameStream (s.channel c)) : (s.setChannel c v).streamChannel p = s.streamChannel p := by
  obtain ⟨hport, hstate⟩ := h.stream
  have hsees : v.sees p = (s.channel c).sees p := by rw [Channel.sees, Channel.sees, hport, hstate]
  unfold State.streamChannel
  cases c
  · show (if v.sees p then _ else _) = _
    rw [hsees]
    rfl
  · show (if s.channelA.sees p then _ else if v.sees p then _ else _) = _
    rw [hsees]
    rfl

/-- The states before and after a sector has been found absent: `k` is the job's record then. -/
structure State.Absents (s u : State) (c : ChannelName) (j k : Job) (r : Receipt) : Prop where
  place : s.placeHeaderOnly c j r = u
  ids : u.OneId
  keys : s.OneKey → u.OneKey
  seat : k.id = j.id ∧ k.drive = j.drive
  job : u.job k.id = some k
  ports : ∀ q, u.port q = s.port q
  stream : (u.channel c).SameStream (s.channel c)
  sees : ∀ q, u.streamChannel q = s.streamChannel q
  receipt : (u.channel c).receipt = none

theorem absents_room (hs : s.OneId) (hj : s.job j.id = some j) (hr : (s.channel c).receipt = some r)
    (hp : (s.channel c).parameters = some parameters) (h : s.headerOnlyCount < 60)
    (hu : u = ({ s with input := s.input ++ [r.headerOnly j parameters.pass] } : State).setChannel c
      { (s.channel c).absented r with readingsPlaced := (s.channel c).readingsPlaced + 1 }) : s.Absents u c j j r := by
  have hstream := absented_stream (s.channel c) r
  have hsame : Channel.SameStream { (s.channel c).absented r with readingsPlaced := (s.channel c).readingsPlaced + 1 } (s.channel c) :=
    ⟨hstream.stream, hstream.owner, hstream.pass, hstream.pending⟩
  subst hu
  exact {
    place := placeHeaderOnly_room hr hp h
    ids := by
      refine setChannel_oneId ?_ c _
      exact hs
    keys := fun hk => by
      refine setChannel_oneKey ?_ c _
      exact hk
    seat := ⟨rfl, rfl⟩
    job := by rw [setChannel_job]; exact hj
    ports := fun q => by rw [setChannel_port]; rfl
    stream := by rw [channel_setChannel]; exact hsame
    sees := fun q => streamChannel_setChannel (s := s.setInput _) hsame
    receipt := by rw [channel_setChannel]; rfl }

theorem absents_full (hs : s.OneId) (hj : s.job j.id = some j) (hr : (s.channel c).receipt = some r)
    (h : 60 ≤ s.headerOnlyCount) (hkj : k = { j with overrun := satSucc 65535 j.overrun })
    (hu : u = (s.withJob k).setChannel c ((s.channel c).absented r)) : s.Absents u c j k r := by
  subst hu hkj
  exact {
    place := placeHeaderOnly_full hs hj hr h
    ids := setChannel_oneId (withJob_oneId hs _) c _
    keys := fun hk => by
      refine setChannel_oneKey ?_ c _
      exact hk
    seat := ⟨rfl, rfl⟩
    job := by rw [setChannel_job]; exact job_withJob hj rfl
    ports := fun q => by rw [setChannel_port]; rfl
    stream := by rw [channel_setChannel]; exact absented_stream _ r
    sees := fun q => streamChannel_setChannel (s := s.withJob _) (absented_stream _ r)
    receipt := by rw [channel_setChannel]; rfl }

theorem State.Absents.watched (ha : s.Absents u c j k r) (p : Fin 4) : (s.watched p).Absents (u.watched p) c j k r where
  place := by rw [placeHeaderOnly_watched, ha.place]
  ids := ha.ids
  keys := ha.keys
  seat := ha.seat
  job := ha.job
  ports q := by
    by_cases hq : q = p
    · subst hq
      rw [State.watched, State.watched, port_updatePort_self, port_updatePort_self, ha.ports]
    · exact (Four.get_set_other _ p q _ hq).trans ((ha.ports q).trans (Four.get_set_other _ p q _ hq).symm)
  stream := ha.stream
  sees := ha.sees
  receipt := ha.receipt

/-! ## The end that was pending -/

theorem sectorAbsent_open (ha : s.Absents u c j k r) (h : (s.channel c).endPending = none) : s.sectorAbsent c j r = u := by
  rw [State.sectorAbsent, h, if_neg (by decide), ha.place, State.afterSector, ha.stream.pending, h]

theorem sectorAbsent_captureEnd (ha : s.Absents u c j k r) (h : (s.channel c).endPending = some .captureEnd) :
    s.sectorAbsent c j r = u.endPassNormally c := by
  rw [State.sectorAbsent, h, if_neg (by decide), ha.place, State.afterSector, ha.stream.pending, h]

theorem sectorAbsent_cancel (hr : (s.channel c).receipt = some r) (h : (s.channel c).endPending = some .cancel) :
    s.sectorAbsent c j r = (s.setChannel c ((s.channel c).absented r)).endPassCancelled c := by
  have hdiscard : s.discardSector c = s.setChannel c ((s.channel c).absented r) := by
    rw [State.discardSector, updateChannel_eq, dropReceipt_some hr]
    rfl
  rw [State.sectorAbsent, h, if_pos (by decide), hdiscard, State.afterSector, channel_setChannel, (absented_stream _ r).pending, h]

end absent

/-! ## What meets the sector -/

section met

variable {s u : State} {p : Fin 4} {c : ChannelName} {j k : Job} {r : Receipt}

theorem exec_badHeader (hc : s.streamChannel p = some c) : exec (.badHeader p) s = .next (s.badHeaderAt c) := congrArg _ (atChannel_some hc _)

theorem exec_dataMark (hc : s.streamChannel p = some c) : exec (.dataMark p) s = .next (s.dataMarkAt c) := congrArg _ (atChannel_some hc _)

theorem exec_dataFieldEnd (hc : s.streamChannel p = some c) (data : List Byte) (check : Word) (doubtful : List Nat) :
    exec (.dataFieldEnd p data check doubtful) s = .next (s.dataEndAt c data check doubtful) := congrArg _ (atChannel_some hc _)

theorem badHeaderAt_clear (hst : (s.channel c).state = .capturing) (hr : (s.channel c).receipt = none) : s.badHeaderAt c = s.takeBadHeader c := by
  rw [State.badHeaderAt, hst]
  dsimp only
  rw [meetReceipt_none hr, if_pos rfl]

theorem goodHeaderAt_clear {h : Header} (hst : (s.channel c).state = .capturing) (hr : (s.channel c).receipt = none) : s.goodHeaderAt c h
    = if (s.channel c).firstRule && (s.channel c).startId == some h.sector then s.captureEnd c else s.takeGoodHeader c h := by
  rw [State.goodHeaderAt, hst]
  dsimp only
  rw [meetReceipt_none hr, if_pos rfl]

/-- The events that a sector in receipt meets where its data field is absent. -/
def Meets (p : Fin 4) (kind : PortKind) (met : Instr) : Prop :=
  met = .badHeader p ∨ (∃ cylinder head sector size, met = .goodHeader p cylinder head sector size)
    ∨ ((met = .blockMarkReport p ∨ met = .bandEndMark p) ∧ kind = .cartridge)

variable {met : Instr}

/-- With an end pending, the sector is found absent and nothing more is taken. -/
theorem exec_met_pending (hc : s.streamChannel p = some c) (hst : (s.channel c).state = .capturing) (hr : (s.channel c).receipt = some r)
    (hmark : r.dataMark = false) (hj : s.passJob c = some j) (hport : (s.port p).state = .streaming) (hpend : (s.channel c).endPending ≠ none)
    (hmet : Meets p (s.port p).kind met) :
    exec met s = .next (s.sectorAbsent c j r) ∨ exec met s = .next ((s.watched p).sectorAbsent c j r) := by
  have hsome : (s.channel c).endPending.isNone = false := Option.isNone_eq_false_iff.2 (Option.isSome_iff_ne_none.2 hpend)
  rcases hmet with rfl | ⟨cylinder, head, sector, size, rfl⟩ | ⟨rfl | rfl, hk⟩
  · left
    rw [exec_badHeader hc, State.badHeaderAt, hst]
    dsimp only
    rw [meetReceipt_absent hr hmark hj, hsome, if_neg Bool.false_ne_true]
  · left
    rw [exec_goodHeader hc, State.goodHeaderAt, hst]
    dsimp only
    rw [meetReceipt_absent hr hmark hj, hsome, if_neg Bool.false_ne_true]
  · right
    rw [exec_blockMark hk hport, watched_some hc, State.blockMarkAt, watched_channel, hst]
    dsimp only
    rw [meetReceipt_absent (s := s.watched p) hr hmark hj]
  · right
    have hpending : (s.channel c).endPending.isSome = true := Option.isSome_iff_ne_none.2 hpend
    rw [exec_bandEnd hk hport, watched_some hc, State.bandEndAt, watched_channel, hst, hr, show (s.watched p).passJob c = some j from hj]
    dsimp only
    rw [if_pos hpending, hmark, if_neg (by decide)]

/-- With no end pending, what met the sector is taken in its own right. -/
theorem exec_met_open (ha : s.Absents u c j k r) (hc : s.streamChannel p = some c) (hst : (s.channel c).state = .capturing)
    (hr : (s.channel c).receipt = some r) (hmark : r.dataMark = false) (hj : s.passJob c = some j) (hport : (s.port p).state = .streaming)
    (hpend : (s.channel c).endPending = none) (hmet : Meets p (s.port p).kind met) : exec met s = exec met u := by
  have hc' : u.streamChannel p = some c := (ha.sees p).trans hc
  have hst' : (u.channel c).state = .capturing := ha.stream.stream.2.trans hst
  have hport' : (u.port p).state = .streaming := by rw [ha.ports, hport]
  have hwatched : (s.watched p).placeHeaderOnly c j r = u.watched p := by rw [placeHeaderOnly_watched, ha.place]
  rcases hmet with rfl | ⟨cylinder, head, sector, size, rfl⟩ | ⟨rfl | rfl, hk⟩
  · rw [exec_badHeader hc, exec_badHeader hc', badHeaderAt_clear hst' ha.receipt, State.badHeaderAt, hst]
    dsimp only
    rw [meetReceipt_absent hr hmark hj, hpend, if_pos (by rfl), sectorAbsent_open ha hpend]
  · rw [exec_goodHeader hc, exec_goodHeader hc', goodHeaderAt_clear hst' ha.receipt, State.goodHeaderAt, hst]
    dsimp only
    rw [meetReceipt_absent hr hmark hj, hpend, if_pos (by rfl), sectorAbsent_open ha hpend]
  · rw [exec_blockMark hk hport, exec_blockMark (by rw [ha.ports, hk]) hport', watched_some hc, watched_some hc',
      blockMarkAt_clear (s := u.watched p) ha.receipt, State.blockMarkAt, watched_channel, hst]
    dsimp only
    rw [meetReceipt_absent (s := s.watched p) hr hmark hj, State.sectorAbsent, watched_channel, hpend, if_neg (by decide), hwatched, State.afterSector,
      watched_channel, ha.stream.pending, hpend]
  · rw [exec_bandEnd hk hport, exec_bandEnd (by rw [ha.ports, hk]) hport', watched_some hc, watched_some hc', State.bandEndAt, watched_channel, hst, hr,
      show (s.watched p).passJob c = some j from hj, State.bandEndAt, watched_channel, hst', ha.receipt]
    dsimp only
    rw [hpend, if_neg (by decide), hmark, if_neg (by decide), hwatched]

end met

/-! ## Bad headers and data marks -/

section headers

variable {s : State} {c : ChannelName} {j : Job} {r : Receipt}

theorem takeBadHeader_room (hs : s.OneId) (ho : (s.channel c).owner = some j.id) (hj : s.job j.id = some j) (h : (s.channel c).headersTaken < 40) :
    s.takeBadHeader c = (s.withJob { j with headerFailures := satSucc 65535 j.headerFailures }).setChannel c
      { s.channel c with headersTaken := (s.channel c).headersTaken + 1 } := by
  rw [State.takeBadHeader, passJob_of_owner ho hj]
  exact (if_pos h).trans (updateJob_beside hs hj rfl rfl)

theorem takeBadHeader_full (hs : s.OneId) (ho : (s.channel c).owner = some j.id) (hj : s.job j.id = some j) (h : 40 ≤ (s.channel c).headersTaken) :
    s.takeBadHeader c = s.withJob { j with strayHeaders := satSucc 65535 j.strayHeaders } := by
  rw [State.takeBadHeader, passJob_of_owner ho hj]
  exact (if_neg (Nat.not_lt.2 h)).trans (updateJob_eq_withJob hs hj rfl rfl)

theorem dataMarkAt_receipt (hr : (s.channel c).receipt = some r) :
    s.dataMarkAt c = s.setChannel c { s.channel c with receipt := some { r with dataMark := true } } := by
  rw [State.dataMarkAt, updateChannel_eq, hr]
  rfl

theorem dataMarkAt_clear (hr : (s.channel c).receipt = none) : s.dataMarkAt c = s := by
  rw [State.dataMarkAt, updateChannel_eq, hr, Option.map_none, ← hr]
  exact setChannel_self s c

theorem dataEndAt_clear (hr : (s.channel c).receipt = none) (data : List Byte) (check : Word) (doubtful : List Nat) :
    s.dataEndAt c data check doubtful = s := by
  rw [State.dataEndAt, hr]

end headers

end Sys2Proof.Machine

namespace Sys2Proof

open Machine

/-- Settles O51: a bad header and a data mark, and an absent data field by the end that is pending. -/
theorem badHeaderDataMarkAndAbsentField : Obligations.BadHeaderDataMarkAndAbsentField := by
  refine ⟨headerOnlyCount_eq, fun s p => ⟨fun c j hc hst hr ho hj hs => ⟨fun h => ?room, fun h => ?full⟩, fun c r hc hr => ?mark,
    fun c hc => ⟨fun hst => ?armed, fun hr => ?clear⟩, fun hnone => ?unseen, fun c r hc hst hr hmark => ?opened⟩,
    fun s p c j r parameters freed watched hc hst hr hmark hpend ho hj hs hp hk hport hfreed hwatched => ?block,
    fun s absent p c j k r parameters freed met hc hst hr hmark ho hj hs ht hp hport hd hmet hfreed habsent => ?met⟩
  case room =>
    rw [exec_badHeader hc, badHeaderAt_clear hst hr, takeBadHeader_room hs.oneId ho hj h]
    rfl
  case full =>
    rw [exec_badHeader hc, badHeaderAt_clear hst hr, takeBadHeader_full hs.oneId ho hj h]
    rfl
  case mark => rw [exec_dataMark hc, dataMarkAt_receipt hr]
  case armed =>
    rw [exec_badHeader hc, State.badHeaderAt, hst]
  case clear =>
    exact ⟨by rw [exec_dataMark hc, dataMarkAt_clear hr], fun data check doubtful => by rw [exec_dataFieldEnd hc, dataEndAt_clear hr]⟩
  case unseen =>
    exact ⟨congrArg _ (atChannel_none hnone _), congrArg _ (atChannel_none hnone _), fun _ _ _ _ => congrArg _ (atChannel_none hnone _),
      fun _ _ _ => congrArg _ (atChannel_none hnone _)⟩
  case opened =>
    refine ⟨?_, fun cylinder head sector size => ?_, fun hk hport => ?_⟩
    · rw [exec_badHeader hc, State.badHeaderAt, hst]
      dsimp only
      rw [meetReceipt_open hr hmark, if_neg Bool.false_ne_true]
    · rw [exec_goodHeader hc, State.goodHeaderAt, hst]
      dsimp only
      rw [meetReceipt_open hr hmark, if_neg Bool.false_ne_true]
    · rw [exec_blockMark hk hport, watched_some hc, State.blockMarkAt, watched_channel, hst]
      dsimp only
      rw [meetReceipt_open (s := s.watched p) hr hmark, watched_cartridge hk]
  case block =>
    obtain rfl : freed = (s.channel c).absented r := hfreed
    obtain rfl : watched = s.watched p := hwatched.trans (watched_cartridge hk).symm
    have hpass := passJob_of_owner ho hj
    have hexec : exec (.blockMarkReport p) s = .next ((s.watched p).sectorAbsent c j r) := by
      rw [exec_blockMark hk hport, watched_some hc, State.blockMarkAt, watched_channel, hst]
      dsimp only
      rw [meetReceipt_absent (s := s.watched p) hr hmark hpass]
    rw [hexec]
    refine ⟨fun hcount => ?_, fun hcount => ?_⟩
    · exact congrArg _ (sectorAbsent_open (absents_room (s := s.watched p) hs.oneId hj hr hp hcount rfl) hpend)
    · exact congrArg _ (sectorAbsent_open (absents_full (s := s.watched p) hs.oneId hj hr hcount rfl rfl) hpend)
  case met =>
    obtain rfl : freed = (s.channel c).absented r := hfreed
    have hpass := passJob_of_owner ho hj
    have ha : s.Absents absent c j k r := by
      rcases habsent with ⟨hcount, rfl, hu⟩ | ⟨hcount, hk, hu⟩
      · exact absents_room hs.oneId hj hr hp hcount hu
      · exact absents_full hs.oneId hj hr hcount hk hu
    have howner : (absent.channel c).owner = some k.id := by rw [ha.stream.owner, ho, ha.seat.1]
    have hstream : (absent.port p).state = .streaming := by rw [ha.ports, hport]
    refine ⟨fun hpend => exec_met_open ha hc hst hr hmark hpass hport hpend hmet, fun hpend => ?_, fun hpend => ?_⟩
    · rcases exec_met_pending hc hst hr hmark hpass hport (by rw [hpend]; decide) hmet with hexec | hexec
      · refine ⟨_, hexec, ?_⟩
        rw [sectorAbsent_captureEnd ha hpend]
        exact endPassNormally_spec ha.ids (ha.keys ht.oneKey) howner ha.job ha.receipt (by rw [ha.seat.2, hd, hstream])
      · refine ⟨_, hexec, ?_⟩
        rw [sectorAbsent_captureEnd (ha.watched p) hpend]
        exact endsPass_watched ha.ids (ha.keys ht.oneKey) howner ha.job ha.receipt hstream (ha.seat.2.trans hd)
    · have hids := setChannel_oneId hs.oneId c ((s.channel c).absented r)
      have hkeys := setChannel_oneKey ht.oneKey c ((s.channel c).absented r)
      have howner' : ((s.setChannel c ((s.channel c).absented r)).channel c).owner = some j.id := by
        rw [channel_setChannel, (absented_stream _ r).owner, ho]
      have hjob : (s.setChannel c ((s.channel c).absented r)).job j.id = some j := by rw [setChannel_job, hj]
      have hclear : ((s.setChannel c ((s.channel c).absented r)).channel c).receipt = none := by rw [channel_setChannel]; rfl
      have hstream' : ((s.setChannel c ((s.channel c).absented r)).port p).state = .streaming := by rw [setChannel_port, hport]
      rcases exec_met_pending hc hst hr hmark hpass hport (by rw [hpend]; decide) hmet with hexec | hexec
      · refine ⟨_, hexec, ?_⟩
        rw [sectorAbsent_cancel hr hpend]
        exact endPassCancelled_spec hids hkeys howner' hjob hclear (by rw [hd, hstream'])
      · refine ⟨_, hexec, ?_⟩
        rw [sectorAbsent_cancel (s := s.watched p) hr hpend, watched_channel,
          show (s.watched p).setChannel c ((s.channel c).absented r) = (s.setChannel c ((s.channel c).absented r)).watched p from
            (updatePort_setChannel ..).symm]
        exact endsCancelled_watched hids hkeys howner' hjob hclear hstream' hd

end Sys2Proof

/-! The data check bit by bit (R108), and the doubtful offsets of a data field (R109). -/

namespace Sys2Proof.Machine

/-! ## The check -/

section check

variable {w : Nat} (poly : BitVec w)

/-- One data bit enters the remainder register (R108). -/
def bitStep (r : BitVec w) (b : Bool) : BitVec w := if r.msb != b then (r <<< 1) ^^^ poly else r <<< 1

/-- The register takes the highest bit of a word, and the word's other bits move up. -/
theorem checkBit_xor (r x : BitVec w) : checkBit poly (r ^^^ x) = bitStep poly r x.msb ^^^ (x <<< 1) := by
  unfold checkBit bitStep
  rw [BitVec.msb_xor, BitVec.shiftLeft_xor_distrib]
  cases h : r.msb ^^ x.msb
  · rw [if_neg (by decide), if_neg (by simpa using h)]
  · rw [if_pos rfl, if_pos (by simpa using h), BitVec.xor_assoc, BitVec.xor_assoc, BitVec.xor_comm (x <<< 1)]

/-- A word whose bits all leave in `n` shifts is taken bit by bit, most significant first. -/
theorem checkBits_xor : ∀ (n : Nat) (r x : BitVec w), x <<< n = 0#w →
    checkBits poly n (r ^^^ x) = ((List.range n).map fun i => x.getMsbD i).foldl (bitStep poly) r
  | 0, r, x, hx => by
    have h0 : x = 0#w := by simpa using hx
    rw [h0]
    simp [checkBits]
  | n + 1, r, x, hx => by
    have hrest : (x <<< 1) <<< n = 0#w := by rw [← BitVec.shiftLeft_add, Nat.add_comm, hx]
    have hbits : (List.range n).map (fun i => (x <<< 1).getMsbD i) = (List.range n).map fun i => x.getMsbD (i + 1) :=
      List.map_congr_left fun i _ => BitVec.getMsbD_shiftLeft ..
    rw [checkBits, checkBit_xor, checkBits_xor n _ _ hrest, hbits, List.range_succ_eq_map, List.map_cons, List.foldl_cons, List.map_map,
      BitVec.msb_eq_getMsbD_zero]
    rfl

theorem checkByte_eq (hw : 8 ≤ w) (r : BitVec w) (b : Byte) :
    checkByte poly r b = ((List.range 8).map fun i => b.getMsbD i).foldl (bitStep poly) r := by
  have hgone : (b.setWidth w <<< (w - 8)) <<< 8 = 0#w := by
    rw [← BitVec.shiftLeft_add, Nat.sub_add_cancel hw]
    exact BitVec.shiftLeft_eq_zero le_rfl
  have hbits : (List.range 8).map (fun i => (b.setWidth w <<< (w - 8)).getMsbD i) = (List.range 8).map fun i => b.getMsbD i := by
    refine List.map_congr_left fun i hi => ?_
    rw [BitVec.getMsbD_shiftLeft, BitVec.getMsbD_setWidth]
    have hi := List.mem_range.1 hi
    rw [decide_eq_true (by omega), Bool.true_and, show i + (w - 8) + 8 - w = i by omega]
  rw [checkByte, checkBits_xor poly 8 r _ hgone, hbits]

theorem remainder_eq (hw : 8 ≤ w) (data : List Byte) :
    remainder poly data = (data.flatMap fun b => (List.range 8).map fun i => b.getMsbD i).foldl (bitStep poly) (BitVec.allOnes w) := by
  rw [remainder, List.foldl_flatMap]
  congr 1
  funext r b
  exact checkByte_eq poly hw r b

end check

/-! ## The offsets -/

theorem mem_insertOffset (o : Nat) : ∀ (l : List Nat) (x : Nat), x ∈ insertOffset o l ↔ x = o ∨ x ∈ l
  | [], x => by simp [insertOffset]
  | y :: rest, x => by
    unfold insertOffset
    split
    · simp
    · split
      · rename_i h
        obtain rfl : o = y := by simpa using h
        simp
      · rw [List.mem_cons, mem_insertOffset o rest, List.mem_cons]
        tauto

theorem insertOffset_ascending (o : Nat) : ∀ (l : List Nat), l.Pairwise (· < ·) → (insertOffset o l).Pairwise (· < ·)
  | [], _ => by simp [insertOffset]
  | y :: rest, hl => by
    obtain ⟨hy, hrest⟩ := List.pairwise_cons.1 hl
    unfold insertOffset
    split
    · rename_i hlt
      refine List.pairwise_cons.2 ⟨fun z hz => ?_, hl⟩
      rcases List.mem_cons.1 hz with rfl | hz
      · exact hlt
      · exact lt_trans hlt (hy z hz)
    · split
      · exact hl
      · rename_i hge hne
        have hne' : o ≠ y := by simpa using hne
        refine List.pairwise_cons.2 ⟨fun z hz => ?_, insertOffset_ascending o rest hrest⟩
        rcases (mem_insertOffset o rest z).1 hz with rfl | hz
        · omega
        · exact hy z hz

theorem foldl_insertOffset : ∀ (marks l : List Nat), l.Pairwise (· < ·) →
    (marks.foldl (fun l o => insertOffset o l) l).Pairwise (· < ·)
      ∧ ∀ x, x ∈ marks.foldl (fun l o => insertOffset o l) l ↔ x ∈ marks ∨ x ∈ l
  | [], l, hl => ⟨hl, by simp⟩
  | o :: rest, l, hl => by
    obtain ⟨hsorted, hmem⟩ := foldl_insertOffset rest (insertOffset o l) (insertOffset_ascending o l hl)
    refine ⟨hsorted, fun x => (hmem x).trans ?_⟩
    rw [mem_insertOffset, List.mem_cons]
    tauto

/-- The offsets of the list that ascends and holds the marks below the bound are the field's doubtful offsets. -/
theorem doubtfulOffsets_eq {marks offsets : List Nat} {n : Nat} (hsorted : offsets.Pairwise (· < ·))
    (hmem : ∀ o, o ∈ offsets ↔ o ∈ marks ∧ o < n) : doubtfulOffsets marks n = offsets := by
  obtain ⟨hasc, hin⟩ := foldl_insertOffset (marks.filter fun o => decide (o < n)) [] List.Pairwise.nil
  refine hasc.eq_of_mem_iff hsorted fun {o} => ?_
  rw [hin, hmem]
  simp

end Sys2Proof.Machine

/-! The end of a data field (R85, R93, R102, R106 to R110). -/

namespace Sys2Proof.Machine

section field

variable {s : State} {p : Fin 4} {c : ChannelName} {j : Job} {r : Receipt} {data : List Byte} {check : Word} {doubtful : List Nat}

/-- The reading of a data field. -/
def Receipt.reading (r : Receipt) (j : Job) (c : ChannelName) (computed recorded : Word) (offsets : List Nat) (pass : Nat) : Reading :=
  { key := ⟨j.handle, j.cylinder, j.head, r.sector⟩, size := r.size
    data := some { clean := decide (computed = recorded), check := recorded, channel := c, place := r.place }
    uncertain := offsets.take 8, moreUncertain := decide (8 < offsets.length), pass := pass, position := r.position }

/-- The state with the reading of a data field in the input queue and its bytes in the landing frame. -/
def State.fieldPlaced (s : State) (c : ChannelName) (r : Receipt) (memory : Memory) (reading : Reading) : State :=
  ({ s with memory := memory, input := s.input ++ [reading] } : State).setChannel c
    { (s.channel c).setCondition r.place .queued with receipt := none, readingsPlaced := (s.channel c).readingsPlaced + 1 }

theorem placeReading_eq {parameters : PassParameters} {offsets : List Nat} {recorded computed : Word}
    (hp : (s.channel c).parameters = some parameters) (hlen : data.length = sectorLength r.size)
    (hrecorded : checkOfKind (s.port j.drive).kind check = recorded) (hcomputed : dataCheck (s.port j.drive).kind data = computed)
    (hoffsets : doubtfulOffsets doubtful (sectorLength r.size + checkLength (s.port j.drive).kind) = offsets) :
    s.placeReading c j r data check doubtful = s.fieldPlaced c r (s.writeFrame ((s.channel c).place r.place).frame 0 data).memory
      (r.reading j c computed recorded offsets parameters.pass) := by
  have hpass : (s.channel c).passNumber = parameters.pass := by rw [Channel.passNumber, hp]
  have htake : data.take (sectorLength r.size) = data := by rw [← hlen, List.take_length]
  unfold State.placeReading
  dsimp only
  rw [htake, hrecorded, hcomputed, hoffsets, hpass]
  cases c <;> rfl

theorem setCondition_stream (ch : Channel) (n : PlaceName) (v : PlaceCondition) : (ch.setCondition n v).SameStream ch := by
  cases n <;> exact ⟨⟨rfl, rfl⟩, rfl, ⟨rfl, rfl⟩, rfl⟩

theorem fieldPlaced_channel (memory : Memory) (reading : Reading) : (s.fieldPlaced c r memory reading).channel c
    = { (s.channel c).setCondition r.place .queued with receipt := none, readingsPlaced := (s.channel c).readingsPlaced + 1 } := by
  rw [State.fieldPlaced, channel_setChannel]

theorem fieldPlaced_pending (memory : Memory) (reading : Reading) :
    ((s.fieldPlaced c r memory reading).channel c).endPending = (s.channel c).endPending := by
  rw [fieldPlaced_channel]
  exact (setCondition_stream ..).pending

/-- A data field that no cancel awaits: its reading is placed, and the end that is pending takes effect. -/
theorem dataEndAt_placed (hr : (s.channel c).receipt = some r) (hj : s.passJob c = some j) (hpend : (s.channel c).endPending ≠ some .cancel) :
    s.dataEndAt c data check doubtful = (s.placeReading c j r data check doubtful).afterSector c := by
  rw [State.dataEndAt, hr, hj]
  dsimp only
  rw [if_neg (by simpa using hpend)]

theorem dataEndAt_cancelled (hr : (s.channel c).receipt = some r) (hj : s.passJob c = some j) (hpend : (s.channel c).endPending = some .cancel) :
    s.dataEndAt c data check doubtful = (s.setChannel c ((s.channel c).absented r)).endPassCancelled c := by
  have hsector := sectorAbsent_cancel (j := j) hr hpend
  rw [State.dataEndAt, hr, hj]
  dsimp only
  rw [if_pos (by simpa using hpend)]
  rwa [State.sectorAbsent, if_pos (by simpa using hpend)] at hsector

theorem fieldPlaced_ends (hs : s.OneId) (hk : s.OneKey) (ho : (s.channel c).owner = some j.id) (hj : s.job j.id = some j)
    (hst : (s.port j.drive).state = .streaming) (memory : Memory) (reading : Reading) :
    (s.fieldPlaced c r memory reading).EndsPass ((s.fieldPlaced c r memory reading).endPassNormally c) c j := by
  refine endPassNormally_spec ?_ ?_ ?_ ?_ ?_ ?_
  · refine setChannel_oneId ?_ c _
    exact hs
  · refine setChannel_oneKey ?_ c _
    exact hk
  · rw [fieldPlaced_channel]
    exact (setCondition_stream ..).owner.trans ho
  · rw [State.fieldPlaced, setChannel_job]
    exact hj
  · rw [fieldPlaced_channel]
  · rw [State.fieldPlaced, setChannel_port]
    exact hst

/-- A pass whose sector has been given up ends by the cancel. -/
theorem absented_ends (hs : s.OneId) (hk : s.OneKey) (ho : (s.channel c).owner = some j.id) (hj : s.job j.id = some j)
    (hst : (s.port j.drive).state = .streaming) : (s.setChannel c ((s.channel c).absented r)).EndsCancelled
      ((s.setChannel c ((s.channel c).absented r)).endPassCancelled c) c j := by
  refine endPassCancelled_spec (setChannel_oneId hs c _) (setChannel_oneKey hk c _) ?_ ?_ ?_ ?_
  · rw [channel_setChannel]
    exact (absented_stream ..).owner.trans ho
  · rw [setChannel_job]
    exact hj
  · rw [channel_setChannel]
    rfl
  · rw [setChannel_port]
    exact hst

theorem sectorLength_le {size : Nat} (h : size ≤ 3) : sectorLength size ≤ 1024 := by
  interval_cases size <;> decide

end field

end Sys2Proof.Machine

namespace Sys2Proof

open Machine

/-- Settles O52: the check bit by bit, and the field's reading, with the end that was pending. -/
theorem dataFieldPlacesReading : Obligations.DataFieldPlacesReading := by
  refine ⟨fun bits next16 next32 hbits h16 h32 data => ⟨?_, ?_, rfl, rfl⟩, rfl, rfl, ⟨rfl, rfl, rfl, rfl⟩,
    fun s p c j r data check doubtful hc hr ho hj => ⟨fun parameters offsets checkBytes recorded computed hp hlen hsize hkind hsorted hmem => ?placed,
      fun hpend hs ht hst => ?cancelled⟩⟩
  · rw [hbits, show next16 = bitStep 0x1021#16 from funext fun r => funext fun b => h16 r b]
    exact remainder_eq _ (by decide) data
  · rw [hbits, show next32 = bitStep 0x04C11DB7#32 from funext fun r => funext fun b => h32 r b]
    exact remainder_eq _ (by decide) data
  case placed =>
    obtain ⟨hrecorded, hcomputed, hlength⟩ : checkOfKind (s.port j.drive).kind check = recorded ∧ dataCheck (s.port j.drive).kind data = computed
        ∧ checkLength (s.port j.drive).kind = checkBytes := by
      rcases hkind with ⟨hk, rfl, rfl, rfl⟩ | ⟨hk, rfl, rfl, rfl⟩ <;> rw [hk] <;> exact ⟨rfl, rfl, rfl⟩
    have hplaced := placeReading_eq (s := s) (c := c) (j := j) (r := r) (data := data) (check := check) (doubtful := doubtful) hp hlen hrecorded
      hcomputed (doubtfulOffsets_eq hsorted (by rw [hlength]; exact hmem))
    have hpass := passJob_of_owner ho hj
    have hroom := sectorLength_le hsize
    refine ⟨(s.writeFrame ((s.channel c).place r.place).frame 0 data).memory, s.fieldPlaced c r _ (r.reading j c computed recorded offsets parameters.pass),
      rfl, fun i b hb => ?_, fun a ha => ?_, fun hpend => ?_, fun hpend hs ht hst => ?_⟩
    · have hlt := (List.getElem?_eq_some_iff.1 hb).1
      exact writeFrame_inside s (offset := 0) hb (by omega)
    · exact writeFrame_outside s (offset := 0) (by omega)
    · rw [exec_dataFieldEnd hc, dataEndAt_placed hr hpass (by rw [hpend]; decide), hplaced, State.afterSector, fieldPlaced_pending, hpend]
    · refine ⟨_, exec_dataFieldEnd hc .., ?_⟩
      rw [dataEndAt_placed hr hpass (by rw [hpend]; decide), hplaced, State.afterSector, fieldPlaced_pending, hpend]
      exact fieldPlaced_ends hs.oneId ht.oneKey ho hj hst ..
  case cancelled =>
    refine ⟨_, exec_dataFieldEnd hc .., ?_⟩
    rw [dataEndAt_cancelled hr (passJob_of_owner ho hj) hpend]
    exact absented_ends hs.oneId ht.oneKey ho hj hst

end Sys2Proof

/-! The derivation of an open entry from its candidates (R119, R120). -/

namespace Sys2Proof.Machine

theorem closed_iff (st : EntryState) : st.closed = true ↔ st ∈ [.settled, .synthesized, .amended] := by
  cases st <;> decide

theorem cleanIndices_length : ∀ (l : List Candidate) (i : Nat), (cleanIndices l i).length = l.countP Candidate.clean
  | [], _ => rfl
  | c :: rest, i => by
    unfold cleanIndices
    rw [List.countP_cons]
    cases c.clean
    · rw [if_neg (by decide), if_neg (by decide), cleanIndices_length rest]
      rfl
    · rw [if_pos rfl, if_pos rfl, List.length_cons, cleanIndices_length rest]

theorem mem_cleanIndices : ∀ (l : List Candidate) (i k : Nat) {c : Candidate}, l[k]? = some c → c.clean = true → i + k ∈ cleanIndices l i
  | [], _, _, _, hk, _ => by simp at hk
  | x :: rest, i, 0, c, hk, hc => by
    obtain rfl : x = c := by simpa using hk
    rw [cleanIndices, if_pos hc]
    exact List.mem_cons_self
  | x :: rest, i, k + 1, c, hk, hc => by
    have hmem := mem_cleanIndices rest (i + 1) k (c := c) (by simpa using hk) hc
    rw [show i + (k + 1) = i + 1 + k by omega]
    unfold cleanIndices
    split
    · exact List.mem_cons_of_mem _ hmem
    · exact hmem

section derive

variable {e : Entry} {k : Nat} {c : Candidate}

theorem derive_disputed (h : 2 ≤ e.candidates.countP Candidate.clean) : e.derive = e.become .disputed none := by
  rw [← cleanIndices_length _ 0] at h
  unfold Entry.derive
  rcases hl : cleanIndices e.candidates 0 with - | ⟨a, - | ⟨b, rest⟩⟩
  · simp [hl] at h
  · simp [hl] at h
  · rfl

theorem cleanIndices_one (h : e.candidates.countP Candidate.clean = 1) (hk : e.candidates[k]? = some c) (hc : c.clean = true) :
    cleanIndices e.candidates 0 = [k] := by
  have hmem := mem_cleanIndices e.candidates 0 k hk hc
  rw [← cleanIndices_length _ 0, List.length_eq_one_iff] at h
  obtain ⟨a, ha⟩ := h
  rw [ha, List.mem_singleton] at hmem
  rw [ha, ← hmem, Nat.zero_add]

theorem agreeOf_eq (hk : e.candidates[k]? = some c) : e.agreeOf k = c.agree := by
  rw [Entry.agreeOf, hk]

theorem derive_settled (h : e.candidates.countP Candidate.clean = 1) (hk : e.candidates[k]? = some c) (hc : c.clean = true)
    (hq : e.quorum ≤ c.agree) : e.derive = e.settle k := by
  rw [Entry.derive, cleanIndices_one h hk hc]
  dsimp only
  rw [agreeOf_eq hk, if_pos hq]

theorem derive_tentative (h : e.candidates.countP Candidate.clean = 1) (hk : e.candidates[k]? = some c) (hc : c.clean = true)
    (hq : c.agree < e.quorum) : e.derive = e.become .tentative (some k) := by
  rw [Entry.derive, cleanIndices_one h hk hc]
  dsimp only
  rw [agreeOf_eq hk, if_neg (by omega)]

theorem derive_unclean (h : e.candidates.countP Candidate.clean = 0) :
    e.derive = e.become (if e.candidates ≠ [] then .weak else if 0 < e.headerOnly then .headerOnly else .expected) none := by
  rw [← cleanIndices_length _ 0, List.length_eq_zero_iff] at h
  rw [Entry.derive, h]
  dsimp only
  by_cases hempty : e.candidates = []
  · rw [if_pos (by simpa using hempty), if_neg (not_not_intro hempty)]
    split <;> rfl
  · rw [if_neg (by simpa using hempty), if_pos hempty]

end derive

end Sys2Proof.Machine

namespace Sys2Proof

open Machine

/-- Settles O54: the state by the number of clean candidates. -/
theorem entryDerivation : Obligations.EntryDerivation := by
  refine fun e => ⟨fun hclosed => if_pos ((closed_iff _).2 hclosed), fun hopen => ?_⟩
  have hderive : e.deriveIfOpen = e.derive := if_neg fun h => hopen ((closed_iff _).1 h)
  rw [hderive]
  exact ⟨derive_disputed, fun k c h hk hc => ⟨derive_settled h hk hc, derive_tentative h hk hc⟩, derive_unclean⟩

end Sys2Proof

/-! The vote (R145 to R147). -/

namespace Sys2Proof.Machine

/-! ## The voters -/

section voters

variable (inputs : List SynthInput) (position : Nat)

theorem free_eq : (inputs.filter fun i => !i.uncertain.contains position) = inputs.filter fun i => decide (position ∉ i.uncertain) := by
  refine List.filter_congr fun i _ => ?_
  by_cases h : position ∈ i.uncertain <;> simp [h]

theorem voters_free (h : ∃ i ∈ inputs, position ∉ i.uncertain) : voters inputs position = inputs.filter fun i => decide (position ∉ i.uncertain) := by
  unfold voters
  dsimp only
  rw [free_eq]
  refine if_neg ?_
  rw [List.isEmpty_iff, List.filter_eq_nil_iff]
  obtain ⟨i, hi, hfree⟩ := h
  exact fun hall => hall i hi (decide_eq_true hfree)

theorem voters_all (h : ∀ i ∈ inputs, position ∈ i.uncertain) : voters inputs position = inputs := by
  unfold voters
  dsimp only
  rw [free_eq]
  refine if_pos ?_
  rw [List.isEmpty_iff, List.filter_eq_nil_iff]
  exact fun i hi => by simpa using h i hi

end voters

/-! ## The winning value -/

/-- What a running maximum is: a bound of the start and of each element, and one of them. -/
theorem foldl_max_spec : ∀ (l : List Nat) (a : Nat),
    a ≤ l.foldl max a ∧ (∀ x ∈ l, x ≤ l.foldl max a) ∧ (l.foldl max a = a ∨ l.foldl max a ∈ l)
  | [], a => ⟨le_rfl, by simp, .inl rfl⟩
  | y :: rest, a => by
    obtain ⟨hstart, hall, hone⟩ := foldl_max_spec rest (max a y)
    rw [List.foldl_cons]
    refine ⟨le_trans (le_max_left ..) hstart, List.forall_mem_cons.2 ⟨le_trans (le_max_right ..) hstart, hall⟩, ?_⟩
    rcases hone with h | h
    · rw [h]
      rcases max_choice a y with ha | hy
      · exact .inl ha
      · exact .inr (by rw [hy]; exact List.mem_cons_self)
    · exact .inr (List.mem_cons_of_mem _ h)

section weights

variable {voting : List SynthInput}

theorem le_topWeight {v : SynthInput} (hv : v ∈ voting) : valueWeight voting v.here ≤ topWeight voting :=
  (foldl_max_spec _ 0).2.1 _ (List.mem_map_of_mem hv)

theorem topWeight_attained {v : SynthInput} (hv : v ∈ voting) : ∃ w ∈ voting, valueWeight voting w.here = topWeight voting := by
  rcases (foldl_max_spec (voting.map fun i => valueWeight voting i.here) 0).2.2 with h | h
  · have hle := le_topWeight hv
    have htop : topWeight voting = 0 := h
    exact ⟨v, hv, by omega⟩
  · obtain ⟨w, hw, heq⟩ := List.mem_map.1 h
    exact ⟨w, hw, heq⟩

theorem topWeight_iff {v : SynthInput} (hv : v ∈ voting) :
    valueWeight voting v.here = topWeight voting ↔ ∀ w ∈ voting, valueWeight voting w.here ≤ valueWeight voting v.here := by
  refine ⟨fun h w hw => h ▸ le_topWeight hw, fun h => le_antisymm (le_topWeight hv) ?_⟩
  obtain ⟨w, hw, htop⟩ := topWeight_attained hv
  exact htop ▸ h w hw

theorem winner_first {before after : List SynthInput} {i : SynthInput} (hsplit : voting = before ++ i :: after)
    (hall : ∀ v ∈ voting, valueWeight voting v.here ≤ valueWeight voting i.here)
    (hbefore : ∀ v ∈ before, valueWeight voting v.here < valueWeight voting i.here) : winner voting = i.here := by
  have hi : i ∈ voting := hsplit ▸ List.mem_append_right _ List.mem_cons_self
  have htop := (topWeight_iff hi).2 hall
  have hnone : before.find? (fun v => valueWeight voting v.here == topWeight voting) = none := by
    rw [List.find?_eq_none]
    intro v hv h
    have := hbefore v hv
    have heq : valueWeight voting v.here = topWeight voting := by simpa using h
    omega
  have hfind : voting.find? (fun v => valueWeight voting v.here == topWeight voting) = some i := by
    have hhere : (valueWeight voting i.here == topWeight voting) = true := beq_iff_eq.2 htop
    conv_lhs => rw [hsplit, List.find?_append, ← hsplit, hnone, Option.none_or, List.find?_cons, hhere]
  rw [winner, hfind]

/-- The winning value is one that a voter gives. -/
theorem winner_given {v : SynthInput} (hv : v ∈ voting) : ∃ w ∈ voting, winner voting = w.here := by
  obtain ⟨w, hw, htop⟩ := topWeight_attained hv
  have hsome : (voting.find? fun i => valueWeight voting i.here == topWeight voting).isSome = true :=
    List.find?_isSome.2 ⟨w, hw, by simpa using htop⟩
  obtain ⟨i, hi⟩ := Option.isSome_iff_exists.1 hsome
  exact ⟨i, List.mem_of_find?_eq_some hi, by rw [winner, hi]⟩

theorem contestedAt_iff : contestedAt voting = true ↔ ∃ v ∈ voting, ∃ w ∈ voting, v.here ≠ w.here := by
  rw [contestedAt, List.any_eq_true]
  constructor
  · rintro ⟨v, hv, hne⟩
    obtain ⟨w, hw, heq⟩ := winner_given hv
    exact ⟨v, hv, w, hw, heq ▸ by simpa using hne⟩
  · rintro ⟨v, hv, w, hw, hne⟩
    by_cases h : v.here = winner voting
    · exact ⟨w, hw, bne_iff_ne.2 fun hw' => hne (h.trans hw'.symm)⟩
    · exact ⟨v, hv, bne_iff_ne.2 h⟩

theorem tiedAt_iff : tiedAt voting = true
    ↔ ∃ v ∈ voting, v.here ≠ winner voting ∧ ∀ w ∈ voting, valueWeight voting w.here ≤ valueWeight voting v.here := by
  rw [tiedAt, List.any_eq_true]
  refine exists_congr fun v => and_congr_right fun hv => ?_
  rw [Bool.and_eq_true, bne_iff_ne, beq_iff_eq, topWeight_iff hv]

end weights

/-! ## The positions in turn -/

theorem voteFrom_eq : ∀ (n position : Nat) (inputs : List SynthInput) (voting : Nat → List SynthInput),
    (∀ i, voting i = voters (inputs.map fun x => { x with bytes := x.bytes.drop i }) (position + i)) →
    voteFrom n position inputs
      = { bytes := (List.range n).map fun i => winner (voting i)
          contested := (List.range n).countP fun i => contestedAt (voting i)
          ties := (List.range n).countP fun i => tiedAt (voting i) }
  | 0, _, _, _, _ => rfl
  | n + 1, position, inputs, voting, h => by
    have hfirst : voters inputs position = voting 0 := by
      rw [h 0]
      simp
    have hrest := voteFrom_eq n (position + 1) (inputs.map fun i => { i with bytes := i.bytes.tail }) (fun i => voting (i + 1)) fun i => by
      rw [h (i + 1), List.map_map, Nat.add_assoc, Nat.add_comm 1 i]
      simp only [Function.comp_def, List.drop_tail]
    rw [voteFrom, hfirst, hrest]
    dsimp only
    rw [List.range_succ_eq_map, List.map_cons, List.map_map, List.countP_cons, List.countP_map, List.countP_cons, List.countP_map]
    cases contestedAt (voting 0) <;> cases tiedAt (voting 0) <;> rfl

/-! ## The bytes of an input -/

theorem checkBytes_eq (kind : PortKind) (check : Word) : checkBytes kind check
    = (if kind = .cartridge then [check.extractLsb' 24 8, check.extractLsb' 16 8] else []) ++ [check.extractLsb' 8 8, check.extractLsb' 0 8] := by
  cases kind <;> rfl

theorem frameData_eq (s : State) (frame size : Nat) :
    s.frameData frame size = (List.range (sectorLength size)).map fun i => s.memory.read (1024 * frame + i) := by
  rw [State.frameData, Memory.readBlock_eq_map, frameAddress_eq]

theorem synthInputs_eq (s : State) (kind : PortKind) (size : Nat) : ∀ (l : List Candidate) (i : Nat),
    s.synthInputs kind size l i = ((l.zipIdx i).filter fun x => x.1.origin == .read).map fun x =>
      { index := x.2
        bytes := (List.range (sectorLength size)).map (fun i => s.memory.read (1024 * x.1.frame + i))
          ++ (if kind = .cartridge then [x.1.check.extractLsb' 24 8, x.1.check.extractLsb' 16 8] else [])
          ++ [x.1.check.extractLsb' 8 8, x.1.check.extractLsb' 0 8]
        weight := x.1.agree, uncertain := x.1.uncertain }
  | [], _ => rfl
  | c :: rest, i => by
    unfold State.synthInputs
    rw [List.zipIdx_cons, List.filter_cons, synthInputs_eq s kind size rest (i + 1), frameData_eq, checkBytes_eq, ← List.append_assoc]
    split <;> rfl

theorem shift_byte {n : Nat} (x : BitVec n) (b : Byte) (h : n + 8 ≤ 32) : (x.setWidth 32 <<< 8) ||| b.setWidth 32 = (x ++ b).setWidth 32 := by
  have hx := x.isLt
  have hb := b.isLt
  have hsum : x.toNat * 2 ^ 8 + b.toNat < 2 ^ 32 :=
    calc x.toNat * 2 ^ 8 + b.toNat < 2 ^ (n + 8) := by rw [Nat.pow_add]; omega
      _ ≤ 2 ^ 32 := Nat.pow_le_pow_right (by decide) h
  have hjoin : x.toNat <<< 8 ||| b.toNat = x.toNat * 2 ^ 8 + b.toNat := by rw [← Nat.shiftLeft_add_eq_or_of_lt hb, Nat.shiftLeft_eq]
  have hmodx : x.toNat % 2 ^ 32 = x.toNat := Nat.mod_eq_of_lt (lt_of_le_of_lt (le_trans (Nat.le_mul_of_pos_right _ (by decide)) (Nat.le_add_right ..)) hsum)
  have hmodb : b.toNat % 2 ^ 32 = b.toNat := Nat.mod_eq_of_lt (lt_trans hb (by decide))
  have hmods : (x.toNat <<< 8) % 2 ^ 32 = x.toNat <<< 8 := by
    rw [Nat.shiftLeft_eq]
    exact Nat.mod_eq_of_lt (lt_of_le_of_lt (Nat.le_add_right ..) hsum)
  refine BitVec.eq_of_toNat_eq ?_
  rw [BitVec.toNat_or, BitVec.toNat_shiftLeft, BitVec.toNat_setWidth, BitVec.toNat_setWidth, BitVec.toNat_setWidth, BitVec.toNat_append,
    hmodx, hmodb, hmods, hjoin, Nat.mod_eq_of_lt hsum]

theorem checkOfBytes_two (a b : Byte) : checkOfBytes [a, b] = (a ++ b).setWidth 32 := by
  have hfirst : (0#32 <<< 8) ||| a.setWidth 32 = a.setWidth 32 := by simp
  show (((0#32 <<< 8) ||| a.setWidth 32) <<< 8) ||| b.setWidth 32 = _
  rw [hfirst, shift_byte a b (by decide)]

theorem checkOfBytes_four (a b c d : Byte) : checkOfBytes [a, b, c, d] = a ++ b ++ c ++ d := by
  have hfour : checkOfBytes [a, b, c, d] = (((checkOfBytes [a, b] <<< 8) ||| c.setWidth 32) <<< 8) ||| d.setWidth 32 := rfl
  rw [hfour, checkOfBytes_two, shift_byte (a ++ b) c (by decide), shift_byte (a ++ b ++ c) d (by decide)]
  exact BitVec.setWidth_eq _

end Sys2Proof.Machine

namespace Sys2Proof

open Machine

/-- Settles O55: the voters, the winning value, the positions in turn and the bytes of the inputs. -/
theorem voteAtPosition : Obligations.VoteAtPosition := by
  refine ⟨fun inputs position => ⟨voters_free inputs position, voters_all inputs position⟩, fun voting weight hweight => ?_, voteFrom_eq,
    fun i b rest h => by rw [SynthInput.here, h]; rfl, rfl, fun _ _ => rfl,
    fun a b c d => ⟨checkOfBytes_four a b c d, ?_⟩, fun s kind size candidates => synthInputs_eq s kind size candidates 0⟩
  · obtain rfl : weight = valueWeight voting := funext hweight
    exact ⟨fun before after i => winner_first, contestedAt_iff, tiedAt_iff⟩
  · rw [checkOfBytes_two]
    refine BitVec.eq_of_toNat_eq ?_
    rw [BitVec.toNat_setWidth, BitVec.toNat_append, BitVec.toNat_append, BitVec.toNat_append]
    simp only [BitVec.toNat_ofNat]
    have hlt : (a.toNat <<< 8 ||| b.toNat) < 2 ^ 32 := Nat.or_lt_two_pow (by have := a.isLt; rw [Nat.shiftLeft_eq]; omega) (by omega)
    rw [Nat.mod_eq_of_lt hlt]
    simp

end Sys2Proof

/-! The reading that the reconciler takes (R123 to R131). -/

namespace Sys2Proof.Machine

/-! ## The parts of a taking -/

theorem agreeWith_eq (c : Candidate) (r : Reading) (pinned : Bool) : c.agreeWith r pinned = { c with
    agree := satSucc 255 c.agree
    uncertain := if pinned then c.uncertain else c.uncertain.filter fun o => decide (o ∈ r.uncertain)
    moreUncertain := if pinned then c.moreUncertain else c.moreUncertain && r.moreUncertain } := by
  have hkept : c.uncertain.filter r.uncertain.contains = c.uncertain.filter fun o => decide (o ∈ r.uncertain) :=
    List.filter_congr fun o _ => List.contains_eq_mem ..
  cases pinned
  · rw [← hkept]
    rfl
  · rfl

section identical

variable {s : State} {e : Entry} {bytes : List Byte} {check : Word}

theorem alike_iff (c : Candidate) : (c.check == check && s.frameData c.frame e.size == bytes) = true
    ↔ c.check = check ∧ s.frameData c.frame e.size = bytes := by
  rw [Bool.and_eq_true, beq_iff_eq, beq_iff_eq]

theorem identical_eq_some_iff {k : Nat} : s.identical e bytes check = some k ↔
    ∃ c, e.candidates[k]? = some c ∧ (c.check = check ∧ s.frameData c.frame e.size = bytes)
      ∧ ∀ i x, i < k → e.candidates[i]? = some x → ¬(x.check = check ∧ s.frameData x.frame e.size = bytes) := by
  rw [State.identical, List.findIdx?_eq_some_iff_getElem]
  constructor
  · rintro ⟨hk, hat, hbefore⟩
    refine ⟨_, List.getElem?_eq_getElem hk, (alike_iff _).1 hat, fun i x hi hx h => ?_⟩
    obtain ⟨hlt, rfl⟩ := List.getElem?_eq_some_iff.1 hx
    exact hbefore i hi ((alike_iff _).2 h)
  · rintro ⟨c, hc, hat, hbefore⟩
    obtain ⟨hk, rfl⟩ := List.getElem?_eq_some_iff.1 hc
    refine ⟨hk, (alike_iff _).2 hat, fun i hi h => ?_⟩
    have hlt : i < e.candidates.length := Nat.lt_trans hi hk
    exact hbefore i _ hi (List.getElem?_eq_getElem hlt) ((alike_iff _).1 h)

theorem identical_none_iff : s.identical e bytes check = none ↔ ∀ x ∈ e.candidates, ¬(x.check = check ∧ s.frameData x.frame e.size = bytes) := by
  rw [State.identical, List.findIdx?_eq_none_iff]
  exact forall₂_congr fun x _ => by rw [← alike_iff (s := s) (e := e) x, Bool.not_eq_true]

end identical

theorem weakestBad_none_iff {e : Entry} : e.weakestBad = none ↔ ∀ c ∈ e.candidates, c.clean = true := by
  constructor
  · intro hnone c hc
    by_contra hbad
    have hsome := lowestAgree_isSome (p := fun c => !c.clean) 0 ⟨c, hc, by simpa using hbad⟩
    rw [Entry.weakestBad, Option.map_eq_none_iff] at hnone
    rw [hnone] at hsome
    cases hsome
  · intro hall
    refine Option.eq_none_iff_forall_ne_some.2 fun k hk => ?_
    obtain ⟨c, hc, hbad, -⟩ := weakestBad_iff.1 hk
    rw [hall c (List.mem_of_getElem? hc)] at hbad
    cases hbad

/-! ## The job of the band is told -/

section told

variable {s t : State} {r : Reading} {rest : List Reading} {e after : Entry} {j : Job} {dropped progress : Bool}

theorem bandJob_noteTaken {handle cylinder head : Nat} (hj : s.bandJob handle cylinder head = some j) :
    (s.updateJob j.id fun x => x.noteTaken dropped progress).bandJob handle cylinder head = some (j.noteTaken dropped progress) := by
  have hsame : ((fun x : Job => x.handle == handle && x.cylinder == cylinder && x.head == head)
      ∘ fun x : Job => if x.id == j.id then x.noteTaken dropped progress else x)
      = fun x => x.handle == handle && x.cylinder == cylinder && x.head == head := by
    funext x
    by_cases h : (x.id == j.id) = true
    · rw [Function.comp_apply, if_pos h]
      rfl
    · rw [Function.comp_apply, if_neg h]
  show (s.jobs.map _).find? _ = _
  rw [List.find?_map, hsame]
  show (s.bandJob handle cylinder head).map _ = _
  rw [hj, Option.map_some, if_pos (beq_self_eq_true _)]

/-- The judgement of the pass that a taking may have drained. -/
theorem tellTaken_drains (hs : s.OneId) (hk : s.OneKey) (hj : s.bandJob r.key.handle r.key.cylinder r.key.head = some j) :
    (s.withJob (j.noteTaken dropped progress)).GoesOn ((s.tellTaken r dropped progress).checkDrained j.id) (j.noteTaken dropped progress)
      ∧ (s.tellTaken r dropped progress).bandJob r.key.handle r.key.cylinder r.key.head = some (j.noteTaken dropped progress) := by
  have hjob := job_oneId hs (bandJob_mem hj).1
  have htold : s.tellTaken r dropped progress = s.updateJob j.id fun x => x.noteTaken dropped progress := by rw [State.tellTaken, hj]
  have hwith : s.tellTaken r dropped progress = s.withJob (j.noteTaken dropped progress) := htold.trans (updateJob_eq_withJob hs hjob rfl rfl)
  refine ⟨?_, htold ▸ bandJob_noteTaken hj⟩
  rw [hwith]
  exact checkDrained_spec (j := j.noteTaken dropped progress) (withJob_oneId hs _) hk (job_withJob hjob rfl)

theorem takeReading_eq (hin : s.input = r :: rest) (ht : (s.setInput rest).reconcile r = t)
    (hj : t.bandJob r.key.handle r.key.cylinder r.key.head = some j) : exec .takeReading s = .next (t.checkDrained j.id) := by
  show execTakeReading s = _
  rw [execTakeReading, State.takeReading, hin]
  dsimp only
  rw [ht, hj]

theorem updateEntry_oneKey (hk : s.OneKey) {k : Key} {x : Entry} (hx : x.key = k) : (s.updateEntry k fun _ => x).OneKey := by
  have hkey : ∀ y : Entry, (if y.key == k then x else y).key = y.key := by
    intro y
    by_cases h : y.key = k
    · rw [if_pos (beq_iff_eq.2 h), hx, h]
    · rw [if_neg (by simpa using h)]
  show (s.entries.map _).Pairwise _
  rw [List.pairwise_map]
  exact hk.imp fun h => by simpa only [hkey] using h

/-! ## A header-only reading -/

theorem takeReading_headerOnly (hs : s.OneId) (hk : s.OneKey) (hin : s.input = r :: rest) (he : s.entry r.key = some e)
    (hj : s.bandJob r.key.handle r.key.cylinder r.key.head = some j) (hd : r.data = none)
    (hafter : after = ({ e with headerOnly := satSucc 255 e.headerOnly } : Entry).deriveIfOpen) :
    ∃ t, exec .takeReading s = .next t
      ∧ (((s.setInput rest).updateEntry r.key fun _ => after).withJob (j.noteTaken false (after.state != e.state))).GoesOn t
          (j.noteTaken false (after.state != e.state)) := by
  have hkey : after.key = r.key := by
    rw [hafter, (sameList_deriveIfOpen _).1]
    exact (entry_key he :)
  obtain ⟨hgoes, hband⟩ := tellTaken_drains (s := (s.setInput rest).updateEntry r.key fun _ => after) (r := r) (j := j) (dropped := false)
    (progress := after.state != e.state) hs (updateEntry_oneKey (s := s.setInput rest) hk hkey) hj
  have hrec : (s.setInput rest).reconcile r = ((s.setInput rest).updateEntry r.key fun _ => after).tellTaken r false (after.state != e.state) := by
    have hentry : (s.setInput rest).entry r.key = some e := he
    rw [State.reconcile, hentry, hd, hafter]
    rfl
  exact ⟨_, takeReading_eq hin hrec hband, hgoes⟩

end told

/-! ## A reading with data -/

/-- What a reading with data does at its entry (R126 to R131): the entry met, the frame its landing place then holds, the pool, and what
its job is told. -/
def State.Meets (s : State) (e : Entry) (r : Reading) (d : ReadingData) (frame : Nat) (met : Entry) (left : Nat) (pool : List Nat)
    (dropped agreed : Bool) : Prop :=
  ∃ used, e.meet r d frame (s.identical e (s.frameData frame e.size) d.check) s.pool.head? = ⟨met, left, used, dropped, agreed⟩
    ∧ (if used then s.pool.tail else s.pool) = pool ∧ met.readings = e.readings

section meets

variable {s : State} {e : Entry} {r : Reading} {d : ReadingData} {frame left k : Nat} {pool : List Nat}

theorem meets_identical (h : s.identical e (s.frameData frame e.size) d.check = some k) :
    s.Meets e r d frame { e with candidates := e.candidates.modify k fun x => x.agreeWith r e.pinned } frame s.pool false
      (decide (e.agreeOf k < 255)) := by
  refine ⟨false, ?_, rfl, rfl⟩
  rw [h]
  unfold Entry.meet
  rfl

section distinct

variable (hnew : s.identical e (s.frameData frame e.size) d.check = none)

include hnew

theorem meets_closed (hclosed : e.state.closed = true) :
    s.Meets e r d frame { e with lateVariants := satSucc 255 e.lateVariants } frame s.pool true false := by
  refine ⟨false, ?_, rfl, rfl⟩
  unfold Entry.meet
  rw [hnew]
  dsimp only
  rw [if_pos hclosed]
  rfl

variable (hopen : e.state.closed = false)

include hopen

theorem meets_pinned (hpin : e.pinned = true) : s.Meets e r d frame { e with dropped := satSucc 255 e.dropped } frame s.pool true false := by
  refine ⟨false, ?_, rfl, rfl⟩
  unfold Entry.meet
  rw [hnew]
  dsimp only
  rw [if_neg (Bool.eq_false_iff.1 hopen), if_pos hpin]
  rfl

variable (hpin : e.pinned = false)

include hpin

theorem meets_joins (hroom : e.candidates.length < 4) (hpool : s.pool = left :: pool) :
    s.Meets e r d frame { e with candidates := e.candidates ++ [r.candidate d frame] } left pool false false := by
  refine ⟨true, ?_, by rw [hpool]; rfl, rfl⟩
  unfold Entry.meet
  rw [hnew, hpool]
  dsimp only
  rw [if_neg (Bool.eq_false_iff.1 hopen), if_neg (Bool.eq_false_iff.1 hpin), if_pos (show e.candidates.length < Config.candidateSlots from hroom)]
  rfl

theorem meets_noFrame (hroom : e.candidates.length < 4) (hpool : s.pool = []) :
    s.Meets e r d frame { e with dropped := satSucc 255 e.dropped } frame s.pool true false := by
  refine ⟨false, ?_, rfl, rfl⟩
  unfold Entry.meet
  rw [hnew, hpool]
  dsimp only
  rw [if_neg (Bool.eq_false_iff.1 hopen), if_neg (Bool.eq_false_iff.1 hpin), if_pos (show e.candidates.length < Config.candidateSlots from hroom)]
  rfl

variable (hfull : 4 ≤ e.candidates.length)

include hfull

theorem meets_replaces (hclean : d.clean = true) (hk : e.weakestBad = some k) (hleft : e.frameOf k = some left) :
    s.Meets e r d frame { e with candidates := e.candidates.eraseIdx k ++ [r.candidate d frame] } left s.pool false false := by
  refine ⟨false, ?_, rfl, rfl⟩
  unfold Entry.meet
  rw [hnew, if_pos hclean, hk]
  dsimp only
  rw [if_neg (Bool.eq_false_iff.1 hopen), if_neg (Bool.eq_false_iff.1 hpin),
    if_neg (show ¬e.candidates.length < Config.candidateSlots from Nat.not_lt.2 hfull), hleft]
  rfl

theorem meets_full (h : d.clean = false ∨ e.weakestBad = none) :
    s.Meets e r d frame { e with dropped := satSucc 255 e.dropped } frame s.pool true false := by
  have hnone : (if d.clean then e.weakestBad else none) = none := by
    rcases h with h | h
    · rw [h, if_neg Bool.false_ne_true]
    · rw [h, ite_self]
  refine ⟨false, ?_, rfl, rfl⟩
  unfold Entry.meet
  rw [hnew, hnone]
  dsimp only
  rw [if_neg (Bool.eq_false_iff.1 hopen), if_neg (Bool.eq_false_iff.1 hpin),
    if_neg (show ¬e.candidates.length < Config.candidateSlots from Nat.not_lt.2 hfull)]
  rfl

end distinct

variable {met after : Entry} {rest : List Reading} {j : Job} {dropped agreed : Bool}

theorem takeData_eq (hframe : ((s.channel d.channel).place d.place).frame = frame) (hmeets : s.Meets e r d frame met left pool dropped agreed)
    (hafter : after = ({ met with readings := satSucc 65535 e.readings } : Entry).deriveIfOpen) :
    s.takeData r d e = (((s.setPool pool).updateEntry r.key fun _ => after).freePlace d left).tellTaken r dropped (agreed || after.state != e.state) := by
  obtain ⟨used, hmeet, hpool, hreadings⟩ := hmeets
  have hstate : (if used then s.setPool s.pool.tail else s) = s.setPool pool := by
    rw [← hpool]
    cases used <;> rfl
  have hcounted : met.countReading.deriveIfOpen = after := by
    rw [hafter, ← hreadings]
    rfl
  unfold State.takeData
  dsimp only
  rw [hframe, hmeet]
  dsimp only
  rw [hstate, hcounted]

theorem State.Meets.key (hmeets : s.Meets e r d frame met left pool dropped agreed) : met.key = e.key := by
  obtain ⟨used, hmeet, -⟩ := hmeets
  have hkept := (meet_accounts e r d frame (s.identical e (s.frameData frame e.size) d.check) s.pool.head?).1
  rwa [hmeet] at hkept

/-- A reading with data leaves the queue. -/
theorem takeReading_data (hs : s.OneId) (hk : s.OneKey) (hin : s.input = r :: rest) (he : s.entry r.key = some e)
    (hj : s.bandJob r.key.handle r.key.cylinder r.key.head = some j) (hd : r.data = some d)
    (hframe : frame = ((s.channel d.channel).place d.place).frame) (hmeets : s.Meets e r d frame met left pool dropped agreed)
    (hafter : after = ({ met with readings := satSucc 65535 e.readings } : Entry).deriveIfOpen) :
    ∃ t, exec .takeReading s = .next t
      ∧ (((((s.setInput rest).setPool pool).updateEntry r.key fun _ => after).withJob
          (j.noteTaken dropped (agreed || after.state != e.state))).updateChannel d.channel
            fun ch => ch.setPlace d.place ⟨left, .free⟩).GoesOn t (j.noteTaken dropped (agreed || after.state != e.state)) := by
  have hkey : after.key = r.key := by
    rw [hafter, (sameList_deriveIfOpen _).1]
    exact hmeets.key.trans (entry_key he)
  have hbefore : (((s.setInput rest).setPool pool).updateEntry r.key fun _ => after).freePlace d left
      = (((s.setInput rest).setPool pool).updateEntry r.key fun _ => after).setChannel d.channel
          ((s.channel d.channel).setPlace d.place ⟨left, .free⟩) := rfl
  obtain ⟨hgoes, hband⟩ := tellTaken_drains (s := (((s.setInput rest).setPool pool).updateEntry r.key fun _ => after).freePlace d left)
    (r := r) (j := j) (dropped := dropped) (progress := agreed || after.state != e.state)
    (by rw [hbefore]; exact setChannel_oneId (by exact hs) _ _)
    (by rw [hbefore]; exact setChannel_oneKey (updateEntry_oneKey (s := (s.setInput rest).setPool pool) hk hkey) _ _)
    (by rw [hbefore]; generalize d.channel = c; cases c <;> exact hj)
  have hrec : (s.setInput rest).reconcile r = ((((s.setInput rest).setPool pool).updateEntry r.key fun _ => after).freePlace d left).tellTaken r
      dropped (agreed || after.state != e.state) := by
    have hentry : (s.setInput rest).entry r.key = some e := he
    have hmet : (s.setInput rest).Meets e r d frame met left pool dropped agreed := hmeets
    rw [State.reconcile, hentry, hd]
    exact takeData_eq (s := s.setInput rest) hframe.symm hmet hafter
  refine ⟨_, takeReading_eq hin hrec hband, ?_⟩
  have hsame : (((((s.setInput rest).setPool pool).updateEntry r.key fun _ => after).withJob
          (j.noteTaken dropped (agreed || after.state != e.state))).updateChannel d.channel fun ch => ch.setPlace d.place ⟨left, .free⟩)
      = ((((s.setInput rest).setPool pool).updateEntry r.key fun _ => after).freePlace d left).withJob
          (j.noteTaken dropped (agreed || after.state != e.state)) := by
    unfold State.freePlace State.updateChannel
    generalize d.channel = c
    cases c <;> rfl
  rw [hsame]
  exact hgoes

end meets

end Sys2Proof.Machine

namespace Sys2Proof

open Machine

/-- Settles O53: the parts of a taking, a header-only reading, and a reading with data by what it meets at its entry. -/
theorem readingTaken : Obligations.ReadingTaken := by
  refine ⟨fun s h => ?_, fun _ _ => rfl, fun e k c hc => ⟨agreeOf_eq hc, frameOf_eq hc⟩, fun _ _ _ => rfl, agreeWith_eq, fun _ _ _ => rfl,
    frameData_eq, fun s e bytes check => ⟨fun k => identical_eq_some_iff, identical_none_iff⟩,
    fun e => ⟨fun k => weakestBad_iff, weakestBad_none_iff⟩, fun s r rest e j hin he hj hjobs htable => ⟨?headerOnly, ?data⟩⟩
  · show execTakeReading s = _
    rw [execTakeReading, State.takeReading, h]
  case headerOnly =>
    rintro hd after hafter counted rfl
    exact takeReading_headerOnly hjobs.oneId htable.oneKey hin he hj hd hafter
  case data =>
    rintro d frame left met after pool dropped agreed hd hframe hcase hafter counted rfl
    refine takeReading_data hjobs.oneId htable.oneKey hin he hj hd hframe ?_ hafter
    rcases hcase with ⟨k, hk, rfl, rfl, rfl, rfl, rfl⟩ | ⟨hnew, rfl, hcase⟩
    · exact meets_identical hk
    rcases hcase with ⟨hclosed, rfl, rfl, rfl, rfl⟩ | ⟨hopen, hcase⟩
    · exact meets_closed hnew hclosed
    rcases hcase with ⟨hpin, hroom, hpool, rfl, rfl⟩ | ⟨k, hpin, hfull, hclean, hk, hleft, rfl, rfl, rfl⟩ | ⟨rfl, rfl, rfl, rfl, hwhy⟩
    · exact meets_joins hnew hopen hpin hroom hpool
    · exact meets_replaces hnew hopen hpin hfull hclean hk hleft
    · rcases Bool.eq_false_or_eq_true e.pinned with hpin | hpin
      · exact meets_pinned hnew hopen hpin
      · rcases hwhy with h | ⟨hroom, hpool⟩ | ⟨hfull, h⟩
        · rw [hpin] at h
          cases h
        · exact meets_noFrame hnew hopen hpin hroom hpool
        · exact meets_full hnew hopen hpin hfull h

end Sys2Proof

/-! The end of a vote (R147 to R153, R160). -/

namespace Sys2Proof.Machine

/-! ## The claim of a clean result (R149 to R151) -/

section claim

theorem not_bandActive {command : Bool} {o : Option Job} (h : command = false ∨ o = none) : ¬(command && o.isSome) = true := by
  rcases h with rfl | rfl <;> simp

theorem notPlaceable_iff (st : EntryState) : (!(st == .weak || st == .exhausted)) = true ↔ st ∉ [.weak, .exhausted] := by
  cases st <;> decide

variable {u : State} {r : SynthRequest} {e : Entry} {frame contested ties k : Nat} {check : Word} {gone : Candidate}

theorem claimPlacing_noEntry (he : u.entry r.key = none) :
    u.claimPlacing r frame check contested ties = (u.returnFrame frame, .discarded .noEntry contested ties) := by
  rw [State.claimPlacing, he]

theorem claimPlacing_bandActive (he : u.entry r.key = some e) (hc : r.source.isCommand = true)
    (hb : u.bandJob r.key.handle r.key.cylinder r.key.head ≠ none) :
    u.claimPlacing r frame check contested ties = (u.returnFrame frame, .discarded .bandActive contested ties) := by
  rw [State.claimPlacing, he]
  exact if_pos (by rw [hc, Option.isSome_iff_ne_none.2 hb]; rfl)

section bandFree

variable (he : u.entry r.key = some e) (hband : r.source.isCommand = false ∨ u.bandJob r.key.handle r.key.cylinder r.key.head = none)

include he hband

theorem claimPlacing_pinned (hp : e.pinned = true) :
    u.claimPlacing r frame check contested ties = (u.returnFrame frame, .discarded .pinned contested ties) := by
  rw [State.claimPlacing, he]
  dsimp only
  rw [if_neg (not_bandActive hband), if_pos hp]

variable (hp : e.pinned = false)

include hp

theorem claimPlacing_state (hst : e.state ∉ [.weak, .exhausted]) :
    u.claimPlacing r frame check contested ties = (u.returnFrame frame, .discarded .state contested ties) := by
  rw [State.claimPlacing, he]
  dsimp only
  rw [if_neg (not_bandActive hband), if_neg (Bool.eq_false_iff.1 hp), if_pos ((notPlaceable_iff _).2 hst)]

variable (hst : e.state ∈ [.weak, .exhausted])

include hst

theorem claimPlacing_known (hk : u.identical e (u.frameData frame e.size) check ≠ none) :
    u.claimPlacing r frame check contested ties = (u.returnFrame frame, .notClean check check contested ties) := by
  obtain ⟨k, hk⟩ := Option.ne_none_iff_exists'.1 hk
  rw [State.claimPlacing, he]
  dsimp only
  rw [if_neg (not_bandActive hband), if_neg (Bool.eq_false_iff.1 hp), if_neg (fun h => (notPlaceable_iff _).1 h hst), hk]

theorem claimPlacing_new (hk : u.identical e (u.frameData frame e.size) check = none) :
    u.claimPlacing r frame check contested ties = u.placeSynth e frame check contested ties := by
  rw [State.claimPlacing, he]
  dsimp only
  rw [if_neg (not_bandActive hband), if_neg (Bool.eq_false_iff.1 hp), if_neg (fun h => (notPlaceable_iff _).1 h hst), hk]

end bandFree

theorem placeSynth_joins (hkey : e.key = r.key) (h : e.candidates.length < 4) : u.placeSynth e frame check contested ties
    = (u.updateEntry r.key fun _ => (e.join (synthCandidate frame check)).become .synthesized (some e.candidates.length),
        .placed e.candidates.length (e.candidates.length + 1) none contested ties) := by
  have hvictim : e.synthVictim = none := if_pos h
  rw [State.placeSynth, hvictim, ← hkey, ← show (e.join (synthCandidate frame check)).candidates.length = e.candidates.length + 1 from List.length_append]

theorem placeSynth_replaces (hkey : e.key = r.key) (h : e.candidates.length = 4) (hk : e.weakest = some k) (hgone : e.candidates[k]? = some gone) :
    u.placeSynth e frame check contested ties
      = ((u.returnFrame gone.frame).updateEntry r.key fun _ => (e.replace k (synthCandidate frame check)).become .synthesized (some 3),
          .placed 3 4 (some k) contested ties) := by
  have hvictim : e.synthVictim = some k := (if_neg (by rw [h]; decide)).trans hk
  have hlen : (e.replace k (synthCandidate frame check)).candidates.length = 4 := by
    obtain ⟨hlt, -⟩ := List.getElem?_eq_some_iff.1 hgone
    show (e.candidates.eraseIdx k ++ [_]).length = 4
    rw [List.length_append, List.length_eraseIdx_of_lt hlt, h]
    rfl
  rw [State.placeSynth, hvictim]
  dsimp only
  rw [hlen, frameOf_eq hgone, ← hkey]

end claim

/-! ## The end and its report -/

/-- The state in which the result of a vote is judged: the voted bytes in the work frame, and the unit idle with the tallies left. -/
def State.voted (s : State) (frame : Nat) (v : Vote) : State := (s.writeFrame frame 0 v.bytes).setSynth (s.synth.release v.contested v.ties)

/-- What a request's end answers to a SYNTHESIZE (R151, R153), where it is none of the ends at a start. -/
def SynthEnd.Answers (x : SynthEnd) (key : Key) (via : Option Via) (code : AnswerCode) (body : List Word) : Prop :=
  x.noFrame = false ∧ ∀ (u : State) (c : Ctx), u.answerSynth c key via x = u.answer c code body

/-- The vote of `r` ends in the state `left`, and its end is answered with this code and body. -/
def State.EndsVote (s : State) (r : SynthRequest) (inputs : List SynthInput) (frame : Nat) (via : Option Via) (left : State)
    (code : AnswerCode) (body : List Word) : Prop :=
  ∃ x, s.endVote r inputs frame = (left, x) ∧ x.Answers r.key via code body

section ends

variable {s left : State} {r : SynthRequest} {inputs : List SynthInput} {frame n : Nat} {v : Vote} {recorded computed : Word} {via : Option Via}
  {code : AnswerCode} {body : List Word} {x : SynthEnd}

theorem answers_notClean {key : Key} {a b : Word} {contested ties : Nat} : (SynthEnd.notClean a b contested ties).Answers key via .synthFailed
    [a, b, numberWord contested, numberWord ties] := ⟨rfl, fun _ _ => rfl⟩

theorem answers_discarded {key : Key} {why : RefusalCode} {contested ties : Nat} : (SynthEnd.discarded why contested ties).Answers key via .synthFailed
    [numberWord why.number, numberWord contested, numberWord ties] := ⟨rfl, fun _ _ => rfl⟩

theorem answers_placed {key : Key} {k count : Nat} {replaced : Option Nat} {contested ties : Nat} :
    (SynthEnd.placed k count replaced contested ties).Answers key via .done
      [key.wordVia via, numberWord k, numberWord count, optionWord replaced, numberWord contested, numberWord ties] := ⟨rfl, fun _ _ => rfl⟩

section vote

variable (hn : n = votePositions inputs - checkLength s.synth.kind) (hv : v = voteFrom (votePositions inputs) 0 inputs)
  (hrecorded : recorded = checkOfBytes (v.bytes.drop n)) (hcomputed : computed = dataCheck s.synth.kind (v.bytes.take n))

include hn hv hrecorded hcomputed

theorem endVote_bad (h : computed ≠ recorded) :
    s.endVote r inputs frame = ((s.voted frame v).returnFrame frame, .notClean computed recorded v.contested v.ties) := by
  subst hn hv hrecorded hcomputed
  exact if_neg (by simpa using h)

theorem endVote_clean (h : computed = recorded) :
    s.endVote r inputs frame = (s.voted frame v).claimPlacing r frame recorded v.contested v.ties := by
  subst hn hv hrecorded hcomputed
  exact if_pos (beq_iff_eq.2 h)

end vote

theorem voteEnd_eq (hr : s.synth.inHand = some r) (hi : s.synth.inputs = some inputs) (hf : s.synth.workFrame = some frame)
    (h : s.endVote r inputs frame = (left, x)) : exec .voteEnd s = .next (left.reportSynth r x).serveNext := by
  show execVoteEnd s = _
  rw [execVoteEnd, State.voteEnd, hr, hi, hf]
  dsimp only
  rw [h]

variable (hr : s.synth.inHand = some r) (hi : s.synth.inputs = some inputs) (hf : s.synth.workFrame = some frame) (hs : left.OneId) (hk : left.OneKey)

include hr hi hf hs hk

theorem voteEnd_answers (h : s.EndsVote r inputs frame via left code body) {q : Queue} {tag : BitVec 8} (hsource : r.source = .command q tag via) :
    ∃ t, exec .voteEnd s = .next t
      ∧ ({ left with link := { left.link with
            reserved := left.link.reserved - 1, responses := left.link.responses ++ [answerOf q tag 40 code body] } } : State).Serves t := by
  obtain ⟨x, hend, -, hanswers⟩ := h
  refine ⟨_, voteEnd_eq hr hi hf hend, ?_⟩
  rw [State.reportSynth, hsource]
  dsimp only
  rw [hanswers]
  exact serveNext_spec (u := left.answer (synthCtx q tag) code body) hs hk

theorem voteEnd_resumes (h : s.EndsVote r inputs frame via left code body) {id : Nat} (hsource : r.source = .close id) :
    ∃ t u, exec .voteEnd s = .next t ∧ left.CloseResumes u id r.key 0 ∧ u.Serves t := by
  obtain ⟨x, hend, hframe, -⟩ := h
  have hbounds := resumeClose_bounds hs id x
  have hreport : left.reportSynth r x = left.resumeClose id x := by rw [State.reportSynth, hsource]
  refine ⟨_, left.resumeClose id x, voteEnd_eq hr hi hf hend, ?_, ?_⟩
  · have hresumes := resumeClose_spec (key := r.key) (r := x) (id := id) hs hk fun hn => by rw [hframe] at hn; cases hn
    rwa [hframe] at hresumes
  · rw [hreport]
    exact serveNext_spec (hbounds.oneId hs) (hbounds.oneKey hk)

end ends

theorem oneKey_updated {s : State} (hk : s.OneKey) {k : Key} {x : Entry} (hx : x.key = k) :
    (s.entries.map fun y => if y.key == k then x else y).Pairwise fun a b => a.key ≠ b.key := updateEntry_oneKey hk hx

theorem voteFrom_length (n position : Nat) (inputs : List SynthInput) : (voteFrom n position inputs).bytes.length = n := by
  rw [voteFrom_eq n position inputs _ fun _ => rfl, List.length_map, List.length_range]

end Sys2Proof.Machine

namespace Sys2Proof

open Machine

/-- Settles O56: the end of the vote in each case of its claim, its report, and the bytes of the work frame. -/
theorem voteEnds : Obligations.VoteEnds := by
  refine ⟨fun s h => ?_, fun s voted left r via inputs frame n v recorded computed code body alike hr hi hf hjobs htable hn hv hrecorded hcomputed
    hvoted halike hcase => ?_⟩
  · show execVoteEnd s = _
    rw [execVoteEnd, State.voteEnd, h]
  obtain rfl : voted = s.voted frame v := hvoted
  have hs := hjobs.oneId
  have hk := htable.oneKey
  have hends : s.EndsVote r inputs frame via left code body ∧ left.link = s.link ∧ left.OneId ∧ left.OneKey := by
    rcases hcase with ⟨hbad, rfl, rfl, rfl⟩ | ⟨hclean, hclaim⟩
    · exact ⟨⟨_, endVote_bad hn hv hrecorded hcomputed hbad, answers_notClean⟩, rfl, hs, hk⟩
    have hend := endVote_clean (r := r) (frame := frame) hn hv hrecorded hcomputed hclean
    rcases hclaim with ⟨reason, rfl, rfl, rfl, hwhy⟩ | ⟨e, c, he, hband, hp, hst, hc, hsame, rfl, rfl, rfl⟩
      | ⟨e, candidate, he, hband, hp, hst, hnew, rfl, rfl, hplaced⟩
    · refine ⟨?_, rfl, hs, hk⟩
      rcases hwhy with ⟨he, rfl⟩ | ⟨e, he, ⟨hc, hb, rfl⟩ | ⟨hband, ⟨hp, rfl⟩ | ⟨hp, hst, rfl⟩⟩⟩
      · exact ⟨_, hend.trans (claimPlacing_noEntry he), answers_discarded⟩
      · exact ⟨_, hend.trans (claimPlacing_bandActive he hc hb), answers_discarded⟩
      · exact ⟨_, hend.trans (claimPlacing_pinned he hband hp), answers_discarded⟩
      · exact ⟨_, hend.trans (claimPlacing_state he hband hp hst), answers_discarded⟩
    · have hknown : (s.voted frame v).identical e ((s.voted frame v).frameData frame e.size) recorded ≠ none := fun h =>
        (identical_eq_none_iff ..).1 h c hc ((halike e c).1 hsame)
      subst hclean
      exact ⟨⟨_, hend.trans (claimPlacing_known he hband hp hst hknown), answers_notClean⟩, rfl, hs, hk⟩
    · have hnone := (identical_eq_none_iff (s.voted frame v) e frame recorded).2 fun c hc h => hnew c hc ((halike e c).2 h)
      have hplace := hend.trans (claimPlacing_new he hband hp hst hnone)
      have hkey := entry_key he
      rcases hplaced with ⟨hroom, rfl, rfl⟩ | ⟨k, gone, hfull, hgone, hbad, hleast, rfl, rfl⟩
      · have hjoins := hplace.trans (placeSynth_joins hkey hroom)
        exact ⟨⟨_, hjoins, answers_placed⟩, rfl, hs, oneKey_updated hk hkey⟩
      · have hweakest := (weakest_of_bad ⟨gone, List.mem_of_getElem? hgone, hbad⟩).2 ⟨gone, hgone, hbad, hleast⟩
        have hreplaces := hplace.trans (placeSynth_replaces hkey hfull hweakest hgone)
        exact ⟨⟨_, hreplaces, answers_placed⟩, rfl, hs, oneKey_updated hk hkey⟩
  obtain ⟨hvote, hlink, hleft, hkeys⟩ := hends
  refine ⟨fun q tag hsource => hlink ▸ voteEnd_answers hr hi hf hleft hkeys hvote hsource,
    fun id hsource => voteEnd_resumes hr hi hf hleft hkeys hvote hsource, fun i b hb hi => ?_, fun a ha => ?_, by rw [hv, voteFrom_length]⟩
  · exact writeFrame_inside s (offset := 0) hb (by omega)
  · exact writeFrame_outside s (offset := 0) (by omega)

end Sys2Proof
